-- ==== Sys2Proof/Word.lean ====
section
/-! DEFINITION. The word types of T1HA-CORE and their plainest conversions (spec/00_scope.md R11, R12, R13).
Every value of the hardware is an unsigned word of 8, 32, 64 or 128 bits, so a bit vector is what the manual means. -/

namespace Sys2Proof

/-- `u8` (R12): the unit of the input memory and of the carry buffer. -/
abbrev Byte := BitVec 8

/-- `u32` (R12): the accumulators and words of generation 1. -/
abbrev U32 := BitVec 32

/-- `u64` (R12): host data, addresses, lengths, and the accumulators of generations 2 and 3. -/
abbrev U64 := BitVec 64

/-- `u128` (R12): the exact product of two 64-bit words. -/
abbrev U128 := BitVec 128

end Sys2Proof
end

