-- ==== Sys2Proof/Syntax.lean ====
section
/-! DEFINITION. The syntax of T1HA-CORE: its fourteen commands (spec/30_encoding.md R110), the host transactions that carry
them (R101), the host-visible registers (spec/10_state.md R40), and the assembler's pseudo-instructions (R116). -/

namespace Sys2Proof

/-- The `E` bit of a command word (R104): the byte order of its input reads (R76). -/
inductive Endian where
  /-- `E = 0`, assembler suffix `.le`. -/
  | little
  /-- `E = 1`, assembler suffix `.be`. -/
  | big
deriving DecidableEq, Repr

/-- The `A` bit of a command word (R104): the alignment discipline of its input reads (R76, R78). -/
inductive Discipline where
  /-- `A = 0`, assembler suffix `.u`. -/
  | unaligned
  /-- `A = 1`, assembler suffix `.a`. -/
  | aligned
deriving DecidableEq, Repr

/-- The commands, one constructor per row of the opcode map (R110). A command carries the `E` and `A` bits its row leaves
free and nothing else (R105: no operand is assembled from command bits). -/
inductive Instr where
  /-- `NOP` (R277). -/
  | nop
  /-- `CLRERR` (R278). -/
  | clrerr
  /-- `HASH0`: one-shot hash through the dispatcher (R272). -/
  | hash0 (e : Endian) (a : Discipline)
  /-- `HASH1`: one-shot generation-1 hash (R176). -/
  | hash1 (e : Endian) (a : Discipline)
  /-- `HASH2`: one-shot generation-2 hash (R195). -/
  | hash2 (e : Endian) (a : Discipline)
  /-- `HASH3`: one-shot generation-3 hash, 64 bits; little-endian only (R216, R111). -/
  | hash3 (a : Discipline)
  /-- `HASH3X`: one-shot generation-3 hash, 128 bits; little-endian only (R217, R111). -/
  | hash3x (a : Discipline)
  /-- `SINIT`: create the streaming hasher (R241). -/
  | sinit
  /-- `SUPD`: feed the streaming hasher (R243). -/
  | supd
  /-- `SFIN`: finish with a 64-bit digest (R247). -/
  | sfin
  /-- `SFINX`: finish with a 128-bit digest (R248). -/
  | sfinx
  /-- `AINIT`: create the adapter (R274). -/
  | ainit
  /-- `AWRITE`: the adapter's write (R275). -/
  | awrite (e : Endian) (a : Discipline)
  /-- `AFIN`: the adapter's finish (R276). -/
  | afin
deriving DecidableEq, Repr

/-- The fields of a datum written to `CMD`: the command word of R104 and, above it, the half that must be zero (R41). -/
structure CommandWord where
  /-- Bits 63:32 of the datum. -/
  high : BitVec 32
  /-- Bits 31:10, `Z`. -/
  z : BitVec 22
  /-- Bit 9, `A`. -/
  a : Bool
  /-- Bit 8, `E`. -/
  e : Bool
  /-- Bits 7:0, `OPC`. -/
  opc : BitVec 8
deriving DecidableEq, Repr

/-- Why a datum written to `CMD` is no command (R112, R114), in the order the decoder tests. All four raise the same
`E_ILLEGAL`. -/
inductive Illegal where
  /-- Bits 63:32 are not zero. -/
  | highHalf
  /-- Bits 31:10 (`Z`) are not zero. -/
  | reservedBits
  /-- `OPC` is none of the fourteen. -/
  | opcode
  /-- `E` or `A` is set on a command whose row fixes it to 0. -/
  | fixedBit
deriving DecidableEq, Repr

/-- The two transactions of the host port (R101). -/
inductive Transaction where
  /-- `WR idx, data`. -/
  | wr (idx : BitVec 5) (data : U64)
  /-- `RD idx`. -/
  | rd (idx : BitVec 5)
deriving DecidableEq, Repr

/-- The host-visible registers (R40). The indices are in Decode.lean. -/
inductive Reg where
  | cmd | status | err | errInfo | cap | sel | seedX | seedY | addr | len | resLo | resHi
deriving DecidableEq, Repr

/-- What the outside world can do to the machine, one at a time and totally ordered (R22, R90, R101). -/
inductive HostEvent where
  /-- A transaction on the host port, as the 70-bit pattern that crosses it (R101). -/
  | port (bits : BitVec 70)
  /-- The host writes a byte of the input memory, which it owns (R22, R70, R89). -/
  | store (addr : U64) (b : Byte)
  /-- The platform makes a page readable (R73). -/
  | mapPage (page : BitVec 52)
  /-- The platform makes a page unreadable (R73). -/
  | unmapPage (page : BitVec 52)
  /-- From here on, until the next such event, exactly these pages are being written by some agent while commands run;
  each byte a command reads from them is a free draw, a new one for each command (R88). -/
  | race (pages : List (BitVec 52))
  /-- The reset input is asserted and released (R320). -/
  | reset
deriving DecidableEq, Repr

/-- The assembler's pseudo-instructions (R116). -/
inductive Pseudo where
  | hash0 (e : Endian) (a : Discipline) (addr len seed : U64)
  | hash1 (e : Endian) (a : Discipline) (addr len seed : U64)
  | hash2 (e : Endian) (a : Discipline) (addr len seed : U64)
  | hash3 (a : Discipline) (addr len seed : U64)
  | hash3x (a : Discipline) (addr len seed : U64)
  | sinit (sx sy : U64)
  | supd (addr len : U64)
  | ainit (s : U64)
  | awrite (e : Endian) (a : Discipline) (addr len : U64)
  | get64
  | get128
deriving DecidableEq, Repr

end Sys2Proof
end

