-- ==== Sys2Proof/Decode.lean ====
section
/-! DEFINITION. The decoder of command words (spec/30_encoding.md R104, R114), total and rejecting by name; after it the
encoder (R110, R115). The 70-bit pattern of a host transaction (R101) and the register indices (spec/10_state.md R40). -/

namespace Sys2Proof

/-- The `E` bit of a word as a byte order (R104). -/
def endianOfBit (b : Bool) : Endian := if b then .big else .little

/-- The `A` bit of a word as a discipline (R104). -/
def disciplineOfBit (b : Bool) : Discipline := if b then .aligned else .unaligned

/-- Splits a datum written to `CMD` into the fields of R104 and the half above them. -/
def fieldsOf (v : U64) : CommandWord where
  high := v.extractLsb' 32 32
  z := v.extractLsb' 10 22
  a := v.getLsbD 9
  e := v.getLsbD 8
  opc := v.extractLsb' 0 8

/-- A command whose row fixes both `E` and `A` to 0 (R110, R111). -/
def fixedBoth (e a : Bool) (i : Instr) : Except Illegal Instr :=
  if e || a then .error .fixedBit else .ok i

/-- A command whose row fixes `E` to 0 (R110, R111). -/
def fixedE (e : Bool) (i : Instr) : Except Illegal Instr :=
  if e then .error .fixedBit else .ok i

/-- The case distinction of R114 on `OPC`. -/
def decodeOpcode (opc : BitVec 8) (e a : Bool) : Except Illegal Instr :=
  match opc with
  | 0x00#8 => fixedBoth e a .nop
  | 0x01#8 => fixedBoth e a .clrerr
  | 0x10#8 => .ok (.hash0 (endianOfBit e) (disciplineOfBit a))
  | 0x11#8 => .ok (.hash1 (endianOfBit e) (disciplineOfBit a))
  | 0x12#8 => .ok (.hash2 (endianOfBit e) (disciplineOfBit a))
  | 0x13#8 => fixedE e (.hash3 (disciplineOfBit a))
  | 0x14#8 => fixedE e (.hash3x (disciplineOfBit a))
  | 0x20#8 => fixedBoth e a .sinit
  | 0x21#8 => fixedBoth e a .supd
  | 0x22#8 => fixedBoth e a .sfin
  | 0x23#8 => fixedBoth e a .sfinx
  | 0x30#8 => fixedBoth e a .ainit
  | 0x31#8 => .ok (.awrite (endianOfBit e) (disciplineOfBit a))
  | 0x32#8 => fixedBoth e a .afin
  | _ => .error .opcode

/-- `decode(v)` of R114, on every 64-bit datum. -/
def decode (v : U64) : Except Illegal Instr :=
  let f := fieldsOf v
  if f.high ≠ 0#32 then .error .highHalf
  else if f.z ≠ 0#22 then .error .reservedBits
  else decodeOpcode f.opc f.e f.a

/-- The bit of a byte order (R104). -/
def endianBit : Endian → BitVec 32
  | .little => 0#32
  | .big => 1#32

/-- The bit of a discipline (R104). -/
def disciplineBit : Discipline → BitVec 32
  | .unaligned => 0#32
  | .aligned => 1#32

/-- `OPC | (E << 8) | (A << 9)` (R115). -/
def commandWord (opc : BitVec 32) (e : Endian) (a : Discipline) : BitVec 32 :=
  opc ||| (endianBit e <<< 8) ||| (disciplineBit a <<< 9)

/-- The 32-bit word of a command (R110, R115). -/
def encode : Instr → BitVec 32
  | .nop => commandWord 0x00#32 .little .unaligned
  | .clrerr => commandWord 0x01#32 .little .unaligned
  | .hash0 e a => commandWord 0x10#32 e a
  | .hash1 e a => commandWord 0x11#32 e a
  | .hash2 e a => commandWord 0x12#32 e a
  | .hash3 a => commandWord 0x13#32 .little a
  | .hash3x a => commandWord 0x14#32 .little a
  | .sinit => commandWord 0x20#32 .little .unaligned
  | .supd => commandWord 0x21#32 .little .unaligned
  | .sfin => commandWord 0x22#32 .little .unaligned
  | .sfinx => commandWord 0x23#32 .little .unaligned
  | .ainit => commandWord 0x30#32 .little .unaligned
  | .awrite e a => commandWord 0x31#32 e a
  | .afin => commandWord 0x32#32 .little .unaligned

/-- The datum a host writes to `CMD` to issue a command: the word, zero-extended (R41). -/
def encodeDatum (i : Instr) : U64 := (encode i).setWidth 64

/-- The transaction of a 70-bit pattern: bit 69 is `rw`, bits 68:64 `idx`, bits 63:0 `data`, ignored for `RD` (R101). -/
def decodeTransaction (t : BitVec 70) : Transaction :=
  if t.getLsbD 69 then .wr (t.extractLsb' 64 5) (t.extractLsb' 0 64) else .rd (t.extractLsb' 64 5)

/-- The pattern of a transaction; a `RD` carries data 0 outward (R101, 96_test_vectors_part2.md section 10.2). -/
def encodeTransaction : Transaction → BitVec 70
  | .wr idx data => 1#1 ++ (idx ++ data)
  | .rd idx => 0#1 ++ (idx ++ 0#64)

/-- The register at an index, `none` where the index is reserved (R40). -/
def regOfIndex (idx : BitVec 5) : Option Reg :=
  match idx with
  | 0x00#5 => some .cmd
  | 0x01#5 => some .status
  | 0x02#5 => some .err
  | 0x03#5 => some .errInfo
  | 0x04#5 => some .cap
  | 0x05#5 => some .sel
  | 0x08#5 => some .seedX
  | 0x09#5 => some .seedY
  | 0x0A#5 => some .addr
  | 0x0B#5 => some .len
  | 0x0C#5 => some .resLo
  | 0x0D#5 => some .resHi
  | _ => none

/-- The index of a register (R40). -/
def indexOfReg : Reg → BitVec 5
  | .cmd => 0x00#5
  | .status => 0x01#5
  | .err => 0x02#5
  | .errInfo => 0x03#5
  | .cap => 0x04#5
  | .sel => 0x05#5
  | .seedX => 0x08#5
  | .seedY => 0x09#5
  | .addr => 0x0A#5
  | .len => 0x0B#5
  | .resLo => 0x0C#5
  | .resHi => 0x0D#5

/-- The decoder on a word numbered as spec/opcode_table.json numbers it: the low `nbits` bits of `w`, every higher bit 0, as
the datum of a `CMD` write. -/
def decodeTableWord (nbits w : Nat) : Option Instr :=
  match decode (BitVec.ofNat 64 (w % 2 ^ nbits)) with
  | .ok i => some i
  | .error _ => none

end Sys2Proof
end

