-- ==== Sys2Proof/Config.lean ====
section
/-! DEFINITION. What is fixed for one machine and does not change while it runs: the parameters of spec/00_scope.md R8, R9
and R10, and the one value the manual leaves free (a byte that is being written while a command reads it, R88). -/

namespace Sys2Proof

/-- The operator of the generation-2 tail cascade, the open parameter `G2_TAIL_OP` (R10, R194, 90_conflicts.md C2). -/
inductive G2TailOp where
  /-- `ADD_WXOR`, the default: a bucket adds the folded product of its word into one accumulator. -/
  | addWxor
  /-- `PUPD`: the source document read literally, `pair_update` on both accumulators. -/
  | pupd
deriving DecidableEq, Repr

/-- The parameters a model takes as configuration fields, each with the default the spec gives (R9, R10).
`Mapped`, the remaining parameter of R10, is the platform's and stands beside the memory it describes
(`Machine.Memory.unmapped`). -/
structure Config where
  /-- Primes `P0` to `P6`, 64 bits (R9). -/
  p0 : U64 := 0xEC99BF0D8372CAAB#64
  p1 : U64 := 0x82434FE90EDCEF39#64
  p2 : U64 := 0xD4F06DB99D67BE4B#64
  p3 : U64 := 0xBD9CACC22C6E9571#64
  p4 : U64 := 0x9C06FAF4D023E3AB#64
  p5 : U64 := 0xC060724A8424F345#64
  p6 : U64 := 0xCB5AF53AE3AAAC31#64
  /-- Primes `Q0` to `Q6`, 32 bits (R9). -/
  q0 : U32 := 0x92D78269#32
  q1 : U32 := 0xCA9B4735#32
  q2 : U32 := 0xA4ABA1C3#32
  q3 : U32 := 0xF6499843#32
  q4 : U32 := 0x86F0FD61#32
  q5 : U32 := 0xCA2DA6FB#32
  q6 : U32 := 0xC4BB3575#32
  /-- `CAP_RESET` (R10, R45): which engines exist. -/
  capReset : BitVec 32 := 0x00000001#32
  /-- `G2_TAIL_OP` (R10, R194). -/
  g2TailOp : G2TailOp := .addWxor
deriving DecidableEq, Repr

/-- The configuration with every parameter at its default: this hardware (R9, R10). -/
def Config.default : Config := {}

/-- The byte a command reads from a page that another agent is writing while the command runs. R88: "each byte the command
reads is unspecified (it may be the old or the new byte, independently per byte), ... a model treats each such byte as a free
draw". Nothing is known of it; the first argument numbers the draw, the second is the address (notes/assumptions/5.md). -/
opaque Config.racedByte : Nat → Nat → Byte

/-- `PAGE` (R8, R72). -/
def pageSize : Nat := 4096

/-- `BUFSZ` (R8): the bytes of the streaming carry buffer. -/
abbrev bufSize : Nat := 32

end Sys2Proof
end

