-- ==== Sys2Proof/Machine/State.lean ====
section
/-! DEFINITION. The state of T1HA-CORE (spec/10_state.md R30 to R56), the environment a command runs in (memory, parameters,
the host's pending events), and the state right after reset (R56, spec/70_reset_and_hazards.md R320). -/

namespace Sys2Proof.Machine

open Sys2Proof

/-- The error codes of `ERR` (spec/60_exceptions.md R290). Codes 10 to 255 never occur, so the type leaves them out
(93_implementation_defined.md U26). -/
inductive ErrCode where
  /-- 0: no error pending. -/
  | none
  /-- 1, `E_ILLEGAL`: the datum written to `CMD` is no command. -/
  | illegal
  /-- 2, `E_REG`: bad register access. -/
  | reg
  /-- 3, `E_ALIGN`: misaligned input under the aligned discipline. -/
  | align
  /-- 4, `E_RANGE`: the input passes the end of the address space. -/
  | range
  /-- 5, `E_BUS`: a read touched an unmapped page. -/
  | bus
  /-- 6, `E_STREAM`: streaming command out of lifecycle. -/
  | stream
  /-- 7, `E_ADAPT`: adapter used before creation. -/
  | adapt
  /-- 8, `E_ENGINE`: the dispatcher selected a body this hardware lacks. -/
  | engine
  /-- 9, `E_FATAL`: the buffer invariant is broken; the core halts. -/
  | fatal
deriving DecidableEq, Repr

/-- The implementations `SEL.IMPL` names (R46); 5 to 7 never occur (U26). -/
inductive Impl where
  /-- 0: generation-1 portable 32-bit body. -/
  | gen1
  /-- 1: generation-2 body. -/
  | gen2
  /-- 2: single-round block-cipher body, narrow form. -/
  | narrowRound
  /-- 3: narrower-SIMD body. -/
  | narrowSimd
  /-- 4: widest-SIMD body. -/
  | wideSimd
deriving DecidableEq, Repr

/-- `SSTATE`, the lifecycle of the streaming hasher (R47, R52); value 3 never occurs (U26). -/
inductive SState where
  /-- 0, `S_NONE`. -/
  | none
  /-- 1, `S_LIVE`. -/
  | live
  /-- 2, `S_DONE`. -/
  | done
deriving DecidableEq, Repr

/-- `PHASE`, which step of a command is next (R38). -/
inductive Phase where
  | idle | init | bulk | fold | t4 | t3 | t2 | t1 | final
  | fillBuf | drain | direct | stash
deriving DecidableEq, Repr

/-- A bank of four 64-bit accumulators (R31). -/
structure Quad where
  a : U64
  b : U64
  c : U64
  d : U64
deriving DecidableEq, Repr

/-- The working bank `WA..WD` and the sequencer `PHASE`, `POS`, `REM` (R31, R38): scratch of the command in progress. -/
structure Work where
  /-- `WA`, `WB`, `WC`, `WD`. -/
  acc : Quad
  /-- `POS`: the address of the next input byte. -/
  pos : U64
  /-- `REM`: the remainder length handed to the tail cascade, 0 to 32. -/
  rem : BitVec 6
  /-- `PHASE`. -/
  phase : Phase
deriving DecidableEq, Repr

/-- The streaming hasher (R31, R47). -/
structure Stream where
  /-- `SA`, `SB`, `SC`, `SD`. -/
  acc : Quad
  /-- `BUF[0..31]`, the carry buffer. -/
  buf : Vector Byte bufSize
  /-- `FILL`: the number of valid bytes in `BUF`. -/
  fill : BitVec 6
  /-- `TOTAL`: the bytes consumed since `SINIT`, modulo `2^64`. -/
  total : U64
  /-- `SSTATE`. -/
  sstate : SState
deriving DecidableEq, Repr

/-- The input memory (R70) and what the platform says of its pages (R73, R88). It belongs to the host; a command only reads
it. -/
structure Memory where
  /-- The bytes that differ from what an unlisted address reads as, addresses strictly rising. -/
  cells : List Host.Cell
  /-- The pages for which `Mapped` is false (R73), strictly rising. -/
  unmapped : List Nat
  /-- The pages some agent is writing while commands run (R88). -/
  racing : List Nat
  /-- Numbers the free draws made for racing pages (R88): the model's own counter, advanced by each command that runs while
  a page is racing. -/
  draw : Nat
deriving DecidableEq, Repr

/-- Every piece of state the spec gives the machine (R30), the memory and configuration a command's step takes as parameters,
and the host port. -/
structure State where
  /-- `SEED_X` (R36). -/
  seedX : U64
  /-- `SEED_Y` (R36). -/
  seedY : U64
  /-- `ADDR` (R36). -/
  addr : U64
  /-- `LEN` (R36). -/
  len : U64
  /-- `RES_LO` (R37). -/
  resLo : U64
  /-- `RES_HI` (R37). -/
  resHi : U64
  /-- `CMD`: the last command word written (R40). -/
  cmd : BitVec 32
  /-- `STATUS.DONE` (R43). -/
  done : Bool
  /-- `STATUS.HALT` (R43, R298). -/
  halt : Bool
  /-- `ERR` (R44). -/
  err : ErrCode
  /-- `ERRINFO` (R44). -/
  errInfo : U64
  /-- `CAP` (R45). -/
  cap : BitVec 32
  /-- `SEL` (R46): `none` while `VALID = 0`, and then `IMPL` is 0. -/
  sel : Option Impl
  /-- The working bank and the sequencer (R31, R38). -/
  work : Work
  /-- The streaming hasher (R31, R47). -/
  stream : Stream
  /-- `ASTATE` (R53). -/
  astate : U64
  /-- `AVALID` (R53). -/
  avalid : Bool
  /-- The input memory, the host's (R70). -/
  mem : Memory
  /-- The parameters of this machine (R9, R10); no transition changes them. -/
  cfg : Config
  /-- What the host and the platform will do next, in order (R22, R90): the model's own field. -/
  inbox : List HostEvent
  /-- The datum returned by the last transaction, if it was a `RD` (R101): the model's own field. -/
  reply : Option U64
deriving DecidableEq, Repr

/-- The reasons a machine stops with a fault: none. Every violated precondition of this hardware is a next state with an
error code (60_exceptions.md), and every address of the memory exists (R70). -/
inductive Fault where
deriving DecidableEq, Repr

/-- The reasons an instruction is refused. -/
inductive Refusal where
  /-- Raised by exec for a command that has no meaning yet (safe); none is left. -/
  | notModelled (mnemonic : String)
deriving DecidableEq, Repr

/-- Four accumulators at zero. -/
def Quad.zero : Quad := ⟨0#64, 0#64, 0#64, 0#64⟩

/-- The working bank and the sequencer after reset. `PHASE` is `IDLE` (R56); the rest is unspecified and zero here
(notes/assumptions/1.md). -/
def Work.reset : Work := ⟨Quad.zero, 0#64, 0#6, .idle⟩

/-- The streaming hasher after reset. `FILL`, `TOTAL` and `SSTATE` are the spec's (R56); `SA..SD` and `BUF` are unspecified
and zero here (notes/assumptions/1.md). -/
def Stream.reset : Stream := ⟨Quad.zero, Vector.replicate bufSize 0#8, 0#6, 0#64, .none⟩

/-- A memory with nothing listed, every page mapped (R73's default) and none racing. -/
def Memory.empty : Memory := ⟨[], [], [], 0⟩

/-- The machine right after reset (R56, R320), with the default configuration. -/
def State.reset : State where
  seedX := 0#64
  seedY := 0#64
  addr := 0#64
  len := 0#64
  resLo := 0#64
  resHi := 0#64
  cmd := 0#32
  done := false
  halt := false
  err := .none
  errInfo := 0#64
  cap := Config.default.capReset
  sel := none
  work := Work.reset
  stream := Stream.reset
  astate := 0#64
  avalid := false
  mem := Memory.empty
  cfg := Config.default
  inbox := []
  reply := none

end Sys2Proof.Machine
end

