-- ==== Sys2Proof/Machine/Flags.lean ====
section
/-! DEFINITION. Every flag of the hardware and the words the host reads them as: `STATUS` (spec/10_state.md R43), `ERR` (R44),
`CAP` (R45), `SEL` (R46), and the code of `SSTATE` (R47). No datapath operation has a flag (R43, 41_mixing_primitives.md
R150). -/

namespace Sys2Proof.Machine

open Sys2Proof

/-- The code of an error in `ERR[7:0]` (R290). -/
def ErrCode.code : ErrCode → BitVec 8
  | .none => 0#8
  | .illegal => 1#8
  | .reg => 2#8
  | .align => 3#8
  | .range => 4#8
  | .bus => 5#8
  | .stream => 6#8
  | .adapt => 7#8
  | .engine => 8#8
  | .fatal => 9#8

/-- `ERR` as the host reads it: the code, bits 31:8 zero (R44). -/
def ErrCode.word (e : ErrCode) : BitVec 32 := e.code.setWidth 32

/-- `SEL.IMPL` (R46). -/
def Impl.code : Impl → BitVec 3
  | .gen1 => 0#3
  | .gen2 => 1#3
  | .narrowRound => 2#3
  | .narrowSimd => 3#3
  | .wideSimd => 4#3

/-- `SEL` as the host reads it: `IMPL | (1 << 3)` once resolved, 0 before (R46, R271). -/
def selWord : Option Impl → BitVec 32
  | none => 0#32
  | some i => i.code.setWidth 32 ||| 8#32

/-- `SSTATE` as a number (R47). -/
def SState.code : SState → BitVec 2
  | .none => 0#2
  | .live => 1#2
  | .done => 2#2

/-- `CAP.W64` (R45): the 64-bit engines exist. -/
def capW64 (c : BitVec 32) : Bool := c.getLsbD 0

/-- `CAP.AESR` (R45): a block-cipher single-round unit exists. -/
def capAesr (c : BitVec 32) : Bool := c.getLsbD 1

/-- `CAP.SIMDN` (R45). -/
def capSimdN (c : BitVec 32) : Bool := c.getLsbD 2

/-- `CAP.SIMDW` (R45). -/
def capSimdW (c : BitVec 32) : Bool := c.getLsbD 3

/-- `CAP` as the host reads it: bits 31:4 are reserved and read as 0 (R45). -/
def capWord (c : BitVec 32) : BitVec 32 := c &&& 0x0000000F#32

/-- A flag at its bit of a 32-bit status word. -/
def flagAt (k : Nat) (b : Bool) : BitVec 32 := if b then 1#32 <<< k else 0#32

/-- `STATUS`, a view of the rest of the state (R43). `BUSY` (bit 7) and bits 31:8 always read 0. -/
def State.status (s : State) : BitVec 32 :=
  flagAt 0 s.done ||| flagAt 1 (s.err != .none) ||| flagAt 2 (s.stream.sstate == .live) |||
  flagAt 3 (s.stream.sstate == .done) ||| flagAt 4 s.sel.isSome ||| flagAt 5 s.avalid ||| flagAt 6 s.halt

end Sys2Proof.Machine
end

