-- ==== Sys2Proof/Machine/Ops.lean ====
section
/-! DEFINITION. The named operations over memory and registers, the error entry (spec/60_exceptions.md R300, R298) and the
return from it (R304), and what a `CMD` write does around the command it issues (spec/30_encoding.md R102). -/

namespace Sys2Proof.Machine

open Sys2Proof

/-! ### Memory -/

/-- What an address reads as that no store has reached (notes/assumptions/2.md). -/
def Memory.unlisted : Byte := 0#8

/-- The byte the list gives an address, or what an unlisted address reads as. -/
def cellAt : List Host.Cell → Nat → Byte
  | [], _ => Memory.unlisted
  | (k, v) :: rest, a => if k = a then v else cellAt rest a

/-- Puts a byte into a list of cells in rising order. -/
def putCell (a : Nat) (b : Byte) : List Host.Cell → List Host.Cell
  | [] => [(a, b)]
  | (k, v) :: rest =>
    if a < k then (a, b) :: (k, v) :: rest
    else if a = k then (a, b) :: rest
    else (k, v) :: putCell a b rest

/-- Puts a page number into a rising list, once. -/
def putPage (p : Nat) : List Nat → List Nat
  | [] => [p]
  | q :: rest => if p < q then p :: q :: rest else if p = q then q :: rest else q :: putPage p rest

/-- `Mapped` of the page an address lies in (R72, R73). -/
def Memory.mapped (m : Memory) (a : Nat) : Bool := !m.unmapped.contains (a / pageSize)

/-- The byte the host's memory holds at an address (R70). -/
def Memory.held (m : Memory) (a : Nat) : Byte := cellAt m.cells a

/-- The byte a command reads at an address: the byte memory holds, or a free draw where some agent is writing the page (R70,
R88). -/
def Memory.byte (m : Memory) (a : Nat) : Byte :=
  if m.racing.contains (a / pageSize) then Config.racedByte m.draw a else m.held a

/-- The `n` bytes from an address on, lowest address first, whether mapped or not. -/
def Memory.bytes (m : Memory) (a n : Nat) : List Byte := (List.range n).map fun i => m.byte (a + i)

/-- `MemRead(addr, n)` (R15): the bytes, or `BusError` with the lowest address of the access that lies in an unmapped page
(R73). -/
def Memory.read (m : Memory) (a : Nat) : Nat → Except Nat (List Byte)
  | 0 => .ok []
  | n + 1 =>
    if m.mapped a then
      match m.read (a + 1) n with
      | .ok bs => .ok (m.byte a :: bs)
      | .error x => .error x
    else .error a

/-- The host stores a byte. Storing what an unlisted address reads as removes the entry, so that equal memories are equal
lists. -/
def Memory.store (m : Memory) (a : Nat) (b : Byte) : Memory :=
  if b = Memory.unlisted then { m with cells := m.cells.filter fun c => c.1 ≠ a }
  else { m with cells := putCell a b m.cells }

/-- The platform maps a page. -/
def Memory.mapPage (m : Memory) (p : Nat) : Memory := { m with unmapped := m.unmapped.filter fun q => q ≠ p }

/-- The platform unmaps a page. -/
def Memory.unmapPage (m : Memory) (p : Nat) : Memory := { m with unmapped := putPage p m.unmapped }

/-- From here on exactly these pages are being written while commands run (R88). -/
def Memory.race (m : Memory) (ps : List Nat) : Memory := { m with racing := ps, draw := m.draw + 1 }

/-- What the next command reads from a racing page are new draws (R88); with no page racing, nothing. -/
def Memory.redraw (m : Memory) : Memory := if m.racing = [] then m else { m with draw := m.draw + 1 }

/-- The canonical form of a memory: addresses strictly rising and below `2^64`, no entry equal to what an unlisted address
reads as, unmapped pages strictly rising. -/
abbrev Memory.wf (m : Memory) : Prop :=
  (m.cells.map Prod.fst).Pairwise (· < ·) ∧ (∀ c ∈ m.cells, c.1 < 2 ^ 64 ∧ c.2 ≠ Memory.unlisted) ∧
  m.unmapped.Pairwise (· < ·)

/-! ### Updates of the state -/

/-- The pending event at the head of the port has been taken; a transaction returns nothing unless it is a `RD`. -/
def State.retire (s : State) : State := { s with inbox := s.inbox.tail, reply := none }

/-- `CMD` is written and `DONE` cleared, as at the start of every command (R102). -/
def State.startCommand (s : State) (w : BitVec 32) : State := { s with cmd := w, done := false }

/-- The command in progress has completed: `DONE <- 1`, `PHASE` returns to `IDLE` (R102). -/
def State.complete (s : State) : State := { s with done := true, work := { s.work with phase := .idle } }

/-- The working bank and the sequencer after part of a command. -/
def State.withWork (s : State) (w : Work) : State := { s with work := w }

/-- The result registers (R37): `{RES_HI, RES_LO}` is the digest. -/
def State.withResult (s : State) (hi lo : U64) : State := { s with resHi := hi, resLo := lo }

/-- The streaming hasher after part of a command. -/
def State.withStream (s : State) (x : Stream) : State := { s with stream := x }

/-- `SEL` is resolved (R271). -/
def State.withSel (s : State) (i : Impl) : State := { s with sel := some i }

/-- `ASTATE` is written (R275). -/
def State.withAstate (s : State) (v : U64) : State := { s with astate := v }

/-- The adapter is created with a state (R274). -/
def State.withAdapter (s : State) (v : U64) : State := { s with astate := v, avalid := true }

/-- The memory after an event of the host's or the platform's. -/
def State.withMem (s : State) (m : Memory) : State := { s with mem := m }

/-- A command has read the memory; the next one makes draws of its own (R88). -/
def State.redraw (s : State) : State := { s with mem := s.mem.redraw }

/-- The transaction is a `RD` that returns this datum (R101). -/
def State.answer (s : State) (v : U64) : State := { s with reply := some v }

/-! ### Errors -/

/-- Error entry, `raise E(info)` inside a command (R300): the first error wins (R303), `DONE` is cleared, `PHASE` returns to
`IDLE`. Nothing is vectored and no mode changes. -/
def State.raise (s : State) (e : ErrCode) (info : U64) : State :=
  { s with
    err := if s.err = .none then e else s.err
    errInfo := if s.err = .none then info else s.errInfo
    done := false
    work := { s.work with phase := .idle } }

/-- `E_FATAL` (R298): overwrites a pending error and halts. -/
def State.fatal (s : State) : State :=
  { s with
    err := .fatal
    errInfo := s.stream.fill.setWidth 64
    halt := true
    done := false
    work := { s.work with phase := .idle } }

/-- The return from an error, which restores nothing and lets commands run again (R304, R278). -/
def State.clearError (s : State) : State := { s with err := .none, errInfo := 0#64 }

/-- `E_REG` (R42, R292): raised by a transaction, so `DONE`, `CMD` and `PHASE` stay; dropped while an error is pending. -/
def State.badAccess (s : State) (idx : BitVec 5) : State :=
  { s with
    err := if s.err = .none then .reg else s.err
    errInfo := if s.err = .none then idx.setWidth 64 else s.errInfo }

/-- An error raised by a command: its code, its information word, and the state the command had reached. -/
structure Raise where
  code : ErrCode
  info : U64
  state : State
deriving DecidableEq, Repr

/-! ### The write of a command -/

/-- `NOP` and `CLRERR` run while an error is pending; no other command does (R102, R303). -/
def runsWhilePending : Instr → Bool
  | .nop | .clrerr => true
  | .hash0 _ _ | .hash1 _ _ | .hash2 _ _ | .hash3 _ | .hash3x _ => false
  | .sinit | .supd | .sfin | .sfinx => false
  | .ainit | .awrite _ _ | .afin => false

/-- What every `WR 0x00` does before its command or its illegal word is looked at (R102, R299 orders 1 to 3): ignored while
halted; else `CMD` and `DONE` are written, the buffer invariant is tested, and the word is refused if an error is pending. -/
def commandWrite (w : BitVec 32) (pendingOk : Bool) (go : State → State) (s : State) : State :=
  let s := s.retire
  if s.halt then s
  else
    let s := s.startCommand w
    if 32 ≤ s.stream.fill.toNat then s.fatal
    else if s.err ≠ .none ∧ pendingOk = false then s
    else go s

/-- How a command ends: completed, or by the error entry from the state it had reached (R19, R102, R300). -/
def settle : Except Raise State → State
  | .ok s => s.complete.redraw
  | .error r => (r.state.raise r.code r.info).redraw

/-- A `CMD` write that issues a command (R102). -/
def runCommand (i : Instr) (body : State → Except Raise State) (s : State) : State :=
  commandWrite (encode i) (runsWhilePending i) (fun s => settle (body s)) s

/-- A `CMD` write of a datum that is no command: `E_ILLEGAL` with the datum, unless an earlier condition applies (R112,
R291, R299). -/
def illegalCommand (v : U64) (s : State) : State :=
  commandWrite (v.setWidth 32) false (fun s => s.raise .illegal v) s

/-! ### Register transactions -/

/-- A register as the host reads it, zero-extended to 64 bits (R40). -/
def regValue (s : State) : Reg → U64
  | .cmd => s.cmd.setWidth 64
  | .status => s.status.setWidth 64
  | .err => s.err.word.setWidth 64
  | .errInfo => s.errInfo
  | .cap => (capWord s.cap).setWidth 64
  | .sel => (selWord s.sel).setWidth 64
  | .seedX => s.seedX
  | .seedY => s.seedY
  | .addr => s.addr
  | .len => s.len
  | .resLo => s.resLo
  | .resHi => s.resHi

/-- `RD idx` (R101, R42): a reserved index answers 0 and is a bad access. It works while halted. -/
def readRegister (idx : BitVec 5) (s : State) : State :=
  let s := s.retire
  match regOfIndex idx with
  | some r => s.answer (regValue s r)
  | none => (s.badAccess idx).answer 0#64

/-- `WR idx, v` to any index but that of `CMD` (R36, R40, R42, R101): ignored while halted; the operand registers take the
datum; a read-only register or a reserved index is a bad access. A write to `CMD` issues a command and does not come here
(`State.due`). -/
def writeRegister (idx : BitVec 5) (v : U64) (s : State) : State :=
  let s := s.retire
  if s.halt then s
  else
    match regOfIndex idx with
    | some .seedX => { s with seedX := v }
    | some .seedY => { s with seedY := v }
    | some .addr => { s with addr := v }
    | some .len => { s with len := v }
    | _ => s.badAccess idx

/-! ### Reset and the environment -/

/-- The reset input (R320, R322): every register of the core as after reset; memory, parameters and what the host will do
next are not the core's and stay. What R320 leaves unspecified is as in `State.reset` (notes/assumptions/1.md). -/
def hardReset (s : State) : State :=
  { State.reset with cap := s.cfg.capReset, mem := s.mem, cfg := s.cfg, inbox := s.inbox }

/-- An event of the host or the platform that is no transaction: a store to the host's memory (R89), a change of the mapping
(R73), other agents starting or ceasing to write pages (R88), reset (R320). A `port` event is a transaction and does not
come here (`State.due`). -/
def environment (ev : HostEvent) (s : State) : State :=
  let s := s.retire
  match ev with
  | .port _ => s
  | .store a b => s.withMem (s.mem.store a.toNat b)
  | .mapPage p => s.withMem (s.mem.mapPage p.toNat)
  | .unmapPage p => s.withMem (s.mem.unmapPage p.toNat)
  | .race ps => s.withMem (s.mem.race (ps.map BitVec.toNat))
  | .reset => hardReset s

/-- What the machine does next. -/
inductive Due where
  /-- The host does nothing: the core is idle (R321). -/
  | idle
  /-- A `CMD` write of a legal command. -/
  | command (i : Instr)
  /-- A `CMD` write of a datum that is no command. -/
  | illegal (v : U64)
  /-- A write of any other index. -/
  | write (idx : BitVec 5) (v : U64)
  /-- A read. -/
  | read (idx : BitVec 5)
  /-- An event that is no transaction. -/
  | event (ev : HostEvent)
deriving DecidableEq, Repr

/-- The machine's fetch: the event at the head of the port, its transaction decoded (R101) and, for a write to `CMD`, its
command (R102, R114). -/
def State.due (s : State) : Due :=
  match s.inbox with
  | [] => .idle
  | .port t :: _ =>
    match decodeTransaction t with
    | .wr idx v =>
      if idx = indexOfReg .cmd then
        match decode v with
        | .ok i => .command i
        | .error _ => .illegal v
      else .write idx v
    | .rd idx => .read idx
  | ev :: _ => .event ev

end Sys2Proof.Machine
end

