-- ==== Sys2Proof/Machine/Control.lean ====
section
/-! DEFINITION. The housekeeping commands NOP and CLRERR (spec/46_dispatch_adapter_control.md section 4). -/

namespace Sys2Proof.Machine

open Sys2Proof

/-- `NOP` (R277): no effect but that of every command write (R102). -/
def execNop (s : State) : Host.Outcome State Fault Refusal := .next (runCommand .nop .ok s)

/-- `CLRERR` (R278): the return from an error (60_exceptions.md R304). -/
def execClrerr (s : State) : Host.Outcome State Fault Refusal :=
  .next (runCommand .clrerr (fun s => .ok s.clearError) s)

end Sys2Proof.Machine
end

