-- ==== Sys2Proof/Machine/Mixing.lean ====
section
/-! DEFINITION. The mixing datapath (spec/41_mixing_primitives.md): rotations, mixers, pair updates and finishers. Pure, total,
without flags (R150). -/

namespace Sys2Proof.Machine

open Sys2Proof

/-- `uROT64(v, n)` (R151). -/
def uRot64 (v : U64) (n : Nat) : U64 := if n = 0 then v else (v >>> n) ||| (v <<< (64 - n))

/-- `uROT32(v, n)` (R152). -/
def uRot32 (v : U32) (n : Nat) : U32 := if n = 0 then v else (v >>> n) ||| (v <<< (32 - n))

/-- The exact product of two 64-bit words, `*W` (R13, R150). -/
def wide64 (v p : U64) : U128 := v.setWidth 128 * p.setWidth 128

/-- The exact product of two 32-bit words. -/
def wide32 (v p : U32) : U64 := v.setWidth 64 * p.setWidth 64

/-- `lo_64` (R13). -/
def lo64 (q : U128) : U64 := q.extractLsb' 0 64

/-- `hi_64` (R13). -/
def hi64 (q : U128) : U64 := q.extractLsb' 64 64

/-- `lo_32` (R13), and bits 31:0 of an accumulator or a seed. -/
def lo32 (q : U64) : U32 := q.extractLsb' 0 32

/-- `hi_32` (R13), and bits 63:32 of a seed. -/
def hi32 (q : U64) : U32 := q.extractLsb' 32 32

/-- `zext_64` of a 32-bit word (R16). -/
def zext64 (v : U32) : U64 := v.setWidth 64

/-- `uMIX64(v, p)` (R153). -/
def uMix64 (v p : U64) : U64 :=
  let t := v * p
  t ^^^ uRot64 t 41

/-- `uWXOR64(v, p)` (R154). -/
def uWxor64 (v p : U64) : U64 :=
  let q := wide64 v p
  lo64 q ^^^ hi64 q

/-- `uPUPD64(a, b, w, p)` (R155): the first result takes the xor, the second the sum. -/
def uPupd64 (a b w p : U64) : U64 × U64 :=
  let q := wide64 (b + w) p
  (a ^^^ lo64 q, b + hi64 q)

/-- `uPUPD32(a, b, w, p)` (R156). -/
def uPupd32 (a b w p : U32) : U32 × U32 :=
  let q := wide32 (b + w) p
  (a ^^^ lo32 q, b + hi32 q)

/-- `uFINW(a, b)` (R157, 90_conflicts.md C1): the generation-2 finisher. -/
def uFinW (c : Config) (a b : U64) : U64 := uWxor64 (uRot64 (a + b) 17) c.p4 + uMix64 (a ^^^ b) c.p0

/-- `uFIN64(a, b)` (R158). -/
def uFin64 (c : Config) (a b : U64) : U64 :=
  let x := (a + uRot64 b 41) * c.p0
  let y := (uRot64 a 23 + b) * c.p6
  uWxor64 (x ^^^ y) c.p5

/-- `uFIN128(a, b, c, d)` (R159), as `(hi, lo)`: four rounds, each on the values the earlier rounds left. -/
def uFin128 (k : Config) (a b c d : U64) : U64 × U64 :=
  let (a, b) := uPupd64 a b (uRot64 c 41 ^^^ d) k.p0
  let (b, c) := uPupd64 b c (uRot64 d 23 ^^^ a) k.p6
  let (c, d) := uPupd64 c d (uRot64 a 19 ^^^ b) k.p5
  let (d, a) := uPupd64 d a (uRot64 b 31 ^^^ c) k.p4
  (c + d, a ^^^ b)

/-- `uFIN32(a, b)` (R160): the generation-1 finisher. -/
def uFin32 (c : Config) (a b : U32) : U64 :=
  let l := zext64 (b ^^^ uRot32 a 13) ||| (zext64 a <<< 32)
  let l := l * c.p0
  let l := l ^^^ (l >>> 41)
  let l := l * c.p4
  let l := l ^^^ (l >>> 47)
  l * c.p6

end Sys2Proof.Machine
end

