-- ==== Sys2Proof/Machine/MemoryUnit.lean ====
section
/-! DEFINITION. The memory-access unit (spec/40_memory_unit.md): the word reader, the boundary-safe tail reader, the byte copy
into the carry buffer and the reads of that buffer. Words are numbers below `256^W` here; the bodies take them at their own
width. -/

namespace Sys2Proof.Machine

open Sys2Proof

/-- `LE(bs)` (R16): the sum of `b_i * 256^i`. -/
def leValue : List Byte → Nat
  | [] => 0
  | b :: rest => b.toNat + 256 * leValue rest

/-- `BE(bs)` (R16): the sum of `b_i * 256^(k-1-i)`. -/
def beValue : List Byte → Nat
  | [] => 0
  | b :: rest => b.toNat * 256 ^ rest.length + beValue rest

/-- A list of bytes as a word in a byte order (R76). -/
def wordValue : Endian → List Byte → Nat
  | .little => leValue
  | .big => beValue

/-- `bytesLE_8(v)` (R16). -/
def bytesLe8 (v : U64) : List Byte := (List.range 8).map fun i => v.extractLsb' (8 * i) 8

/-- `uFETCH(W, E, pos)` (R131). -/
def uFetch (m : Memory) (W : Nat) (e : Endian) (pos : Nat) : Except Nat Nat :=
  match m.read pos W with
  | .ok bs => .ok (wordValue e bs)
  | .error x => .error x

/-- `uTAILLEN(W, rem)` (R132), for `rem >= 1`. -/
def uTailLen (W rem : Nat) : Nat := (rem - 1) % W + 1

/-- The tail read goes forward from `pos`: under the aligned discipline, or where the page offset of `pos` is below `W`,
`(pos & (4096 - W)) = 0` (R84, R133). -/
def readsForward (W : Nat) (a : Discipline) (pos : Nat) : Bool :=
  a == .aligned || pos &&& (pageSize - W) == 0

/-- `uTAIL(W, E, A, pos, r)` (R133), as the hardware computes it: one full-word read, forward or from the underside, and the
mask or shift that keeps the `r` valid bytes. -/
def uTail (m : Memory) (W : Nat) (e : Endian) (a : Discipline) (pos r : Nat) : Except Nat Nat :=
  let off := W - r
  let sh := 8 * off
  let mask := 2 ^ (8 * r) - 1
  if readsForward W a pos then
    match uFetch m W e pos with
    | .ok full => .ok (match e with | .little => full &&& mask | .big => full >>> sh)
    | .error x => .error x
  else
    match uFetch m W e (pos - off) with
    | .ok full => .ok (match e with | .little => full >>> sh | .big => full &&& mask)
    | .error x => .error x

/-- `BufRead(i, n)` (R15): bytes `i .. i+n-1` of the carry buffer. -/
def bufRead (buf : Vector Byte bufSize) (i n : Nat) : List Byte := (buf.toList.drop i).take n

/-- `uBUFFETCH(i)` (R138). -/
def uBufFetch (buf : Vector Byte bufSize) (i : Nat) : U64 := BitVec.ofNat 64 (leValue (bufRead buf i 8))

/-- `uBUFTAIL(i, r)` (R139): the full word, the stale bytes above `r` masked off. -/
def uBufTail (buf : Vector Byte bufSize) (i r : Nat) : U64 :=
  BitVec.ofNat 64 (leValue (bufRead buf i 8) &&& (2 ^ (8 * r) - 1))

/-- A bus error inside a body: the address, and the working bank and sequencer as they were at the failing read. -/
structure BusStop where
  addr : Nat
  work : Work
deriving DecidableEq, Repr

/-- A read of a body, at an offset from `POS`: a 32-bit or 64-bit word, as a number. -/
def Work.fetch (w : Work) (m : Memory) (W : Nat) (e : Endian) (off : Nat) : Except BusStop Nat :=
  match uFetch m W e (w.pos.toNat + off) with
  | .ok x => .ok x
  | .error x => .error ⟨x, w⟩

/-- The tail read of a body, at `POS`. -/
def Work.tail (w : Work) (m : Memory) (W : Nat) (e : Endian) (a : Discipline) (r : Nat) : Except BusStop Nat :=
  match uTail m W e a w.pos.toNat r with
  | .ok x => .ok x
  | .error x => .error ⟨x, w⟩

/-- `POS` moves on by `n` bytes (R39). -/
def Work.advance (w : Work) (n : Nat) : Work := { w with pos := w.pos + BitVec.ofNat 64 n }

/-- The bulk loop of every body (R173, R196, R218): block steps over consecutive blocks, `POS` advancing after each. -/
def repeatBlocks (blk : Work → Except BusStop Work) (size : Nat) : Nat → Work → Except BusStop Work
  | 0, w => .ok w
  | n + 1, w =>
    match blk w with
    | .ok w' => repeatBlocks blk size n (w'.advance size)
    | .error x => .error x

/-- One full-word bucket of a cascade that updates the working bank in place (R175, R194): entered when more than `thr` bytes
remain of the remainder. -/
def tailWord (m : Memory) (W : Nat) (e : Endian) (ph : Phase) (thr rem : Nat) (upd : Nat → Quad → Quad) (w : Work) :
    Except BusStop Work :=
  if thr < rem then
    let w := { w with phase := ph }
    match w.fetch m W e 0 with
    | .ok x => .ok ({ w with acc := upd x w.acc }.advance W)
    | .error x => .error x
  else .ok w

/-- The last bucket of such a cascade: one tail read of the bytes that are left (R175, R194). -/
def tailLast (m : Memory) (W : Nat) (e : Endian) (a : Discipline) (rem : Nat) (upd : Nat → Quad → Quad) (w : Work) :
    Except BusStop Work :=
  if 0 < rem then
    let w := { w with phase := .t1 }
    match w.tail m W e a (uTailLen W rem) with
    | .ok x => .ok { w with acc := upd x w.acc }
    | .error x => .error x
  else .ok w

/-- The tail cascade over the working bank, `T4` to `T1`, with the update each bucket makes (R175, R194). -/
def cascade (m : Memory) (W : Nat) (e : Endian) (a : Discipline) (rem : Nat) (u4 u3 u2 u1 : Nat → Quad → Quad) (w : Work) :
    Except BusStop Work := do
  let w ← tailWord m W e .t4 (3 * W) rem u4 w
  let w ← tailWord m W e .t3 (2 * W) rem u3 w
  let w ← tailWord m W e .t2 W rem u2 w
  tailLast m W e a rem u1 w

/-- The state a cascade is entered at (R38, R214). -/
def cascadeEntry (W rem : Nat) : Phase :=
  if 3 * W < rem then .t4 else if 2 * W < rem then .t3 else if W < rem then .t2 else if 0 < rem then .t1 else .final

end Sys2Proof.Machine
end

