-- ==== Sys2Proof/Machine/Operands.lean ====
section
/-! DEFINITION. The operands of a command (spec/30_encoding.md R105): what the operand registers must satisfy before a
memory-reading command starts (60_exceptions.md R293, R294), and the frame every one-shot body runs in. -/

namespace Sys2Proof.Machine

open Sys2Proof

/-- `A = 1` and `x[ADDR]` is no multiple of the word size (R78, R293). -/
def State.misaligned (s : State) (W : Nat) (a : Discipline) : Bool := a == .aligned && s.addr.toNat % W != 0

/-- `x[ADDR] + x[LEN] > 2^64`, as integers (R294). -/
def State.outOfRange (s : State) : Bool := 2 ^ 64 < s.addr.toNat + s.len.toNat

/-- A one-shot body on the operand registers (R176, R195, R216, R217, R273): the alignment and range checks, in that order
(R299), then the body from `POS = x[ADDR]`; a bus error ends it with the working bank as it then is (R295). -/
def oneShot (W : Nat) (a : Discipline) (body : Work → Except BusStop Work) (s : State) : Except Raise State :=
  if s.misaligned W a then .error ⟨.align, s.addr, s⟩
  else if s.outOfRange then .error ⟨.range, s.addr, s⟩
  else
    match body { s.work with pos := s.addr } with
    | .ok w => .ok (s.withWork w)
    | .error x => .error ⟨.bus, BitVec.ofNat 64 x.addr, s.withWork x.work⟩

end Sys2Proof.Machine
end

