-- ==== Sys2Proof/Machine/Gen1.lean ====
section
/-! DEFINITION. The generation-1 body, 32-bit accumulators and 16-byte blocks, and the command HASH1 (spec/42_gen1_body.md). The
accumulators are bits 31:0 of the working bank; bits 63:32 are written as zero and never read (10_state.md R32). -/

namespace Sys2Proof.Machine

open Sys2Proof

/-- `uG1INIT(seed, len)` (R171). -/
def uG1Init (seed len : U64) (q : Quad) : Quad :=
  let len32 := lo32 len
  { q with
    a := zext64 (uRot32 len32 17 + lo32 seed)
    b := zext64 (len32 ^^^ hi32 seed) }

/-- `uG1BULKINIT` (R181). -/
def uG1BulkInit (q : Quad) : Quad :=
  { q with
    c := zext64 (~~~ (lo32 q.a))
    d := zext64 (uRot32 (lo32 q.b) 5) }

/-- The arithmetic of `uG1BLK` on the four words of a block (R172). -/
def g1Mix (k : Config) (w0 w1 w2 w3 : U32) (q : Quad) : Quad :=
  let a := lo32 q.a
  let b := lo32 q.b
  let c := lo32 q.c
  let d := lo32 q.d
  let d13 := w1 + uRot32 (w3 + d) 17
  let c02 := w0 ^^^ uRot32 (w2 + c) 11
  { a := zext64 (k.q0 * (d13 ^^^ w2))
    b := zext64 (k.q1 * (c02 + w3))
    c := zext64 (c ^^^ uRot32 (b + w1) 7)
    d := zext64 (d ^^^ uRot32 (a + w0) 3) }

/-- `uG1BLK(E, pos)` at `POS` (R172): four fetches, then the mix. -/
def uG1Blk (k : Config) (m : Memory) (e : Endian) (w : Work) : Except BusStop Work := do
  let w0 ← w.fetch m 4 e 0
  let w1 ← w.fetch m 4 e 4
  let w2 ← w.fetch m 4 e 8
  let w3 ← w.fetch m 4 e 12
  .ok { w with acc := g1Mix k (.ofNat 32 w0) (.ofNat 32 w1) (.ofNat 32 w2) (.ofNat 32 w3) w.acc }

/-- `uG1FOLD` (R174). -/
def uG1Fold (k : Config) (q : Quad) : Quad :=
  let c := lo32 q.c + lo32 q.a
  let d := lo32 q.d + lo32 q.b
  { a := zext64 (lo32 q.a ^^^ (k.q6 * (uRot32 c 16 + d)))
    b := zext64 (lo32 q.b ^^^ (k.q5 * (c + uRot32 d 16)))
    c := zext64 c
    d := zext64 d }

/-- `(WA, WB) <- uPUPD32(WA, WB, x, p)` (R175). -/
def g1UpdAB (p : U32) (x : Nat) (q : Quad) : Quad :=
  let r := uPupd32 (lo32 q.a) (lo32 q.b) (.ofNat 32 x) p
  { q with a := zext64 r.1, b := zext64 r.2 }

/-- `(WB, WA) <- uPUPD32(WB, WA, x, p)` (R175). -/
def g1UpdBA (p : U32) (x : Nat) (q : Quad) : Quad :=
  let r := uPupd32 (lo32 q.b) (lo32 q.a) (.ofNat 32 x) p
  { q with b := zext64 r.1, a := zext64 r.2 }

/-- `uG1TAIL(E, A, pos, rem)` at `POS` (R175). -/
def uG1Tail (k : Config) (m : Memory) (e : Endian) (a : Discipline) (rem : Nat) (w : Work) : Except BusStop Work :=
  cascade m 4 e a rem (g1UpdAB k.q4) (g1UpdBA k.q3) (g1UpdAB k.q2) (g1UpdBA k.q1) w

/-- The bulk loop and the fold, only for inputs longer than a block, and `REM` (R170, R173). -/
def g1Bulk (k : Config) (m : Memory) (e : Endian) (len : Nat) (w : Work) : Except BusStop Work :=
  if 16 < len then
    match repeatBlocks (uG1Blk k m e) 16 (len / 16) { w with phase := .bulk, acc := uG1BulkInit w.acc } with
    | .ok w => .ok { w with phase := .fold, acc := uG1Fold k w.acc, rem := .ofNat 6 (len % 16) }
    | .error x => .error x
  else .ok { w with rem := .ofNat 6 len }

/-- The generation-1 body from `PHASE <- INIT` to the finisher's phase (R170, R176). -/
def g1Body (k : Config) (m : Memory) (e : Endian) (a : Discipline) (seed len : U64) (w : Work) : Except BusStop Work := do
  let w ← g1Bulk k m e len.toNat { w with phase := .init, acc := uG1Init seed len w.acc }
  let w ← uG1Tail k m e a w.rem.toNat w
  .ok { w with phase := .final }

/-- The generation-1 digest of the working bank (R176). -/
def g1Digest (k : Config) (w : Work) : U64 := uFin32 k (lo32 w.acc.a) (lo32 w.acc.b)

/-- `HASH1` after decoding (R176). -/
def hash1Body (e : Endian) (a : Discipline) (s : State) : Except Raise State := do
  let s ← oneShot 4 a (g1Body s.cfg s.mem e a s.seedX s.len) s
  .ok (s.withResult 0#64 (g1Digest s.cfg s.work))

/-- `HASH1[.le|.be][.u|.a]` (R176). -/
def execHash1 (e : Endian) (a : Discipline) (s : State) : Host.Outcome State Fault Refusal :=
  .next (runCommand (.hash1 e a) (hash1Body e a) s)

end Sys2Proof.Machine
end

