-- ==== Sys2Proof/Machine/Gen2.lean ====
section
/-! DEFINITION. The generation-2 body, 64-bit accumulators and 32-byte blocks, and the command HASH2 (spec/43_gen2_body.md). -/

namespace Sys2Proof.Machine

open Sys2Proof

/-- `uG2INIT(seed, len)` (R192). -/
def uG2Init (seed len : U64) (q : Quad) : Quad := { q with a := seed, b := len }

/-- `uG2BULKINIT(seed, len)` (R193). -/
def uG2BulkInit (seed len : U64) (q : Quad) : Quad :=
  { q with
    c := uRot64 len 17 + seed
    d := len ^^^ uRot64 seed 17 }

/-- The arithmetic of `uG2BLK` on the four words of a block (R191). -/
def g2Mix (k : Config) (w0 w1 w2 w3 : U64) (q : Quad) : Quad :=
  let d02 := w0 ^^^ uRot64 (w2 + q.d) 17
  let c13 := w1 ^^^ uRot64 (w3 + q.c) 17
  { a := q.a ^^^ (k.p1 * (d02 + w3))
    b := q.b ^^^ (k.p0 * (c13 + w2))
    c := q.c + (q.a ^^^ uRot64 w0 41)
    d := q.d - (q.b ^^^ uRot64 w1 31) }

/-- `uG2BLK(E, pos)` at `POS` (R191): four fetches, then the mix. -/
def uG2Blk (k : Config) (m : Memory) (e : Endian) (w : Work) : Except BusStop Work := do
  let w0 ← w.fetch m 8 e 0
  let w1 ← w.fetch m 8 e 8
  let w2 ← w.fetch m 8 e 16
  let w3 ← w.fetch m 8 e 24
  .ok { w with acc := g2Mix k (.ofNat 64 w0) (.ofNat 64 w1) (.ofNat 64 w2) (.ofNat 64 w3) w.acc }

/-- `uG2FOLD` (R197). -/
def uG2Fold (k : Config) (q : Quad) : Quad :=
  { q with
    a := q.a ^^^ (k.p6 * (uRot64 q.c 17 + q.d))
    b := q.b ^^^ (k.p5 * (q.c + uRot64 q.d 17)) }

/-- `uG2STEP(x, y, w, p)` (R194): the bucket's primary accumulator and the other one, under the operator `G2_TAIL_OP`. -/
def uG2Step (op : G2TailOp) (x y w p : U64) : U64 × U64 :=
  match op with
  | .addWxor => (x + uWxor64 w p, y)
  | .pupd => uPupd64 x y w p

/-- `uG2STEP(WB, WA, x, p)` (R194). -/
def g2UpdB (k : Config) (p : U64) (x : Nat) (q : Quad) : Quad :=
  let r := uG2Step k.g2TailOp q.b q.a (.ofNat 64 x) p
  { q with b := r.1, a := r.2 }

/-- `uG2STEP(WA, WB, x, p)` (R194). -/
def g2UpdA (k : Config) (p : U64) (x : Nat) (q : Quad) : Quad :=
  let r := uG2Step k.g2TailOp q.a q.b (.ofNat 64 x) p
  { q with a := r.1, b := r.2 }

/-- `uG2TAIL(E, A, pos, rem)` at `POS` (R194). -/
def uG2Tail (k : Config) (m : Memory) (e : Endian) (a : Discipline) (rem : Nat) (w : Work) : Except BusStop Work :=
  cascade m 8 e a rem (g2UpdB k k.p4) (g2UpdA k k.p3) (g2UpdB k k.p2) (g2UpdA k k.p1) w

/-- The bulk loop and the fold, only for inputs longer than a block, and `REM` (R190, R196). -/
def g2Bulk (k : Config) (m : Memory) (e : Endian) (seed len : U64) (w : Work) : Except BusStop Work :=
  if 32 < len.toNat then
    match repeatBlocks (uG2Blk k m e) 32 (len.toNat / 32) { w with phase := .bulk, acc := uG2BulkInit seed len w.acc } with
    | .ok w => .ok { w with phase := .fold, acc := uG2Fold k w.acc, rem := .ofNat 6 (len.toNat % 32) }
    | .error x => .error x
  else .ok { w with rem := .ofNat 6 len.toNat }

/-- The generation-2 body from `PHASE <- INIT` to the finisher's phase (R190, R195). -/
def g2Body (k : Config) (m : Memory) (e : Endian) (a : Discipline) (seed len : U64) (w : Work) : Except BusStop Work := do
  let w ← g2Bulk k m e seed len { w with phase := .init, acc := uG2Init seed len w.acc }
  let w ← uG2Tail k m e a w.rem.toNat w
  .ok { w with phase := .final }

/-- The generation-2 digest of the working bank (R195). -/
def g2Digest (k : Config) (w : Work) : U64 := uFinW k w.acc.a w.acc.b

/-- `HASH2` after decoding (R195). -/
def hash2Body (e : Endian) (a : Discipline) (s : State) : Except Raise State := do
  let s ← oneShot 8 a (g2Body s.cfg s.mem e a s.seedX s.len) s
  .ok (s.withResult 0#64 (g2Digest s.cfg s.work))

/-- `HASH2[.le|.be][.u|.a]` (R195). -/
def execHash2 (e : Endian) (a : Discipline) (s : State) : Host.Outcome State Fault Refusal :=
  .next (runCommand (.hash2 e a) (hash2Body e a) s)

end Sys2Proof.Machine
end

