-- ==== Sys2Proof/Machine/Dispatcher.lean ====
section
/-! DEFINITION. The capability dispatcher, HASH0, and the generic incremental adapter AINIT, AWRITE, AFIN
(spec/46_dispatch_adapter_control.md sections 1 to 3). -/

namespace Sys2Proof.Machine

open Sys2Proof

/-- The body `CAP` selects, in the preference order of R271; every SIMD level needs `AESR`. -/
def resolveCap (c : BitVec 32) : Impl :=
  if capAesr c && capSimdW c then .wideSimd
  else if capAesr c && capSimdN c then .narrowSimd
  else if capAesr c then .narrowRound
  else if capW64 c then .gen2
  else .gen1

/-- `uRESOLVE` (R271): the cached selection, computed and written once. -/
def uResolve (s : State) : State × Impl :=
  match s.sel with
  | some i => (s, i)
  | none => (s.withSel (resolveCap s.cap), resolveCap s.cap)

/-- `uBODY0(impl, E, A, seed, base, len)` (R273): the state the selected body leaves and its digest, the result registers
untouched. -/
def uBody0 (impl : Impl) (e : Endian) (a : Discipline) (seed : U64) (s : State) : Except Raise (State × U64) :=
  match impl with
  | .gen1 => do
    let s ← oneShot 4 a (g1Body s.cfg s.mem e a seed s.len) s
    .ok (s, g1Digest s.cfg s.work)
  | .gen2 => do
    let s ← oneShot 8 a (g2Body s.cfg s.mem e a seed s.len) s
    .ok (s, g2Digest s.cfg s.work)
  | .narrowRound | .narrowSimd | .wideSimd => .error ⟨.engine, (selWord s.sel).setWidth 64, s⟩

/-- `HASH0` after decoding (R272): `SEL` stays resolved even if an error follows. -/
def hash0Body (e : Endian) (a : Discipline) (s : State) : Except Raise State := do
  let r := uResolve s
  let (s, dg) ← uBody0 r.2 e a s.seedX r.1
  .ok (s.withResult 0#64 dg)

/-- `E_ADAPT` unless the adapter has been created (R275, R276; 60_exceptions.md R301). -/
def needAdapter (s : State) (k : State → Except Raise State) : Except Raise State :=
  if s.avalid then k s else .error ⟨.adapt, 0#64, s⟩

/-- `AINIT` after decoding (R274). -/
def ainitBody (s : State) : Except Raise State := .ok (s.withAdapter s.seedX)

/-- `AWRITE` after decoding (R275): the state is the seed of the hash and is replaced by its digest. -/
def awriteBody (e : Endian) (a : Discipline) (s : State) : Except Raise State :=
  needAdapter s fun s => do
    let r := uResolve s
    let (s, dg) ← uBody0 r.2 e a s.astate r.1
    .ok (s.withAstate dg)

/-- `AFIN` after decoding (R276): it does not consume the adapter. -/
def afinBody (s : State) : Except Raise State :=
  needAdapter s fun s => .ok (s.withResult 0#64 s.astate)

/-- `HASH0[.le|.be][.u|.a]` (R272). -/
def execHash0 (e : Endian) (a : Discipline) (s : State) : Host.Outcome State Fault Refusal :=
  .next (runCommand (.hash0 e a) (hash0Body e a) s)

/-- `AINIT` (R274). -/
def execAinit (s : State) : Host.Outcome State Fault Refusal := .next (runCommand .ainit ainitBody s)

/-- `AWRITE[.le|.be][.u|.a]` (R275). -/
def execAwrite (e : Endian) (a : Discipline) (s : State) : Host.Outcome State Fault Refusal :=
  .next (runCommand (.awrite e a) (awriteBody e a) s)

/-- `AFIN` (R276). -/
def execAfin (s : State) : Host.Outcome State Fault Refusal := .next (runCommand .afin afinBody s)

end Sys2Proof.Machine
end

