-- ==== Sys2Proof/Machine/Gen3.lean ====
section
/-! DEFINITION. The generation-3 body, one-shot, and the commands HASH3 and HASH3X (spec/44_gen3_body.md). The micro-operations
are functions on four accumulators and on a word source, since the streaming hasher uses them too (R210). Generation 3 reads
little-endian only (20_memory.md R77). -/

namespace Sys2Proof.Machine

open Sys2Proof

/-- A word source (R210): the words of a remainder and its last, partial word. Reading may stop the body with an `ε`. -/
structure WordSource (ε : Type) where
  /-- `word(i)`. -/
  word : Nat → Except ε U64
  /-- `tailword(i, r)`. -/
  tailword : Nat → Nat → Except ε U64

/-- `mem(A, pos)` (R210), at `POS`. -/
def memSource (m : Memory) (a : Discipline) (w : Work) : WordSource BusStop where
  word i := (w.fetch m 8 .little (8 * i)).map (BitVec.ofNat 64)
  tailword i r := ((w.advance (8 * i)).tail m 8 .little a r |>.mapError fun x => { x with work := w }).map (BitVec.ofNat 64)

/-- `buf` (R210): the carry buffer, which cannot fail. -/
def bufSource (buf : Vector Byte bufSize) : WordSource Empty where
  word i := .ok (uBufFetch buf (8 * i))
  tailword i r := .ok (uBufTail buf (8 * i) r)

/-- `uG3INIT(x, y)` (R212). -/
def uG3Init (x y : U64) : Quad where
  a := x
  b := y
  c := uRot64 y 23 + ~~~ x
  d := ~~~ y + uRot64 x 19

/-- `uG3BLK(s, w0, w1, w2, w3)` (R211). -/
def uG3Blk (k : Config) (s : Quad) (w0 w1 w2 w3 : U64) : Quad :=
  let d02 := w0 + uRot64 (w2 + s.d) 56
  let c13 := w1 + uRot64 (w3 + s.c) 19
  { a := s.a ^^^ (k.p5 * (d02 + w3))
    b := s.b ^^^ (k.p6 * (c13 + w2))
    c := s.c ^^^ (s.a + uRot64 w0 57)
    d := s.d ^^^ (s.b + uRot64 w1 38) }

/-- One turn of the one-shot bulk loop at `POS`, less the advance (R218). -/
def g3MemBlk (k : Config) (m : Memory) (a : Discipline) (w : Work) : Except BusStop Work := do
  let src := memSource m a w
  let w0 ← src.word 0
  let w1 ← src.word 1
  let w2 ← src.word 2
  let w3 ← src.word 3
  .ok { w with acc := uG3Blk k w.acc w0 w1 w2 w3 }

/-- `uG3SQUASH(s)` (R213). -/
def uG3Squash (k : Config) (s : Quad) : Quad :=
  { s with
    a := s.a ^^^ (k.p6 * (s.c + uRot64 s.d 23))
    b := s.b ^^^ (k.p5 * (uRot64 s.c 19 + s.d)) }

/-- `(a, b) <- uPUPD64(a, b, x, p)`. -/
def g3UpdAB (p x : U64) (q : Quad) : Quad :=
  let r := uPupd64 q.a q.b x p
  { q with a := r.1, b := r.2 }

/-- `(b, a) <- uPUPD64(b, a, x, p)`. -/
def g3UpdBA (p x : U64) (q : Quad) : Quad :=
  let r := uPupd64 q.b q.a x p
  { q with b := r.1, a := r.2 }

/-- `(a, d) <- uPUPD64(a, d, x, p)`. -/
def g3UpdAD (p x : U64) (q : Quad) : Quad :=
  let r := uPupd64 q.a q.d x p
  { q with a := r.1, d := r.2 }

/-- `(c, b) <- uPUPD64(c, b, x, p)`. -/
def g3UpdCB (p x : U64) (q : Quad) : Quad :=
  let r := uPupd64 q.c q.b x p
  { q with c := r.1, b := r.2 }

/-- `(d, c) <- uPUPD64(d, c, x, p)`. -/
def g3UpdDC (p x : U64) (q : Quad) : Quad :=
  let r := uPupd64 q.d q.c x p
  { q with d := r.1, c := r.2 }

/-- One full-word bucket of a generation-3 cascade, with the count `i` of full words consumed (R214). -/
def g3Word {ε : Type} (src : WordSource ε) (thr rem : Nat) (upd : U64 → Quad → Quad) (iq : Nat × Quad) :
    Except ε (Nat × Quad) :=
  if thr < rem then
    match src.word iq.1 with
    | .ok x => .ok (iq.1 + 1, upd x iq.2)
    | .error x => .error x
  else .ok iq

/-- The last bucket of a generation-3 cascade (R214). -/
def g3Last {ε : Type} (src : WordSource ε) (rem : Nat) (upd : U64 → Quad → Quad) (iq : Nat × Quad) : Except ε Quad :=
  if 0 < rem then
    match src.tailword iq.1 (uTailLen 8 rem) with
    | .ok x => .ok (upd x iq.2)
    | .error x => .error x
  else .ok iq.2

/-- The generation-3 cascade, with the update each bucket makes (R214, R215). -/
def g3Cascade {ε : Type} (src : WordSource ε) (rem : Nat) (u4 u3 u2 u1 : U64 → Quad → Quad) (q : Quad) : Except ε Quad := do
  let iq ← g3Word src 24 rem u4 (0, q)
  let iq ← g3Word src 16 rem u3 iq
  let iq ← g3Word src 8 rem u2 iq
  g3Last src rem u1 iq

/-- `uG3TAILAB((a, b), src, rem)` (R214); `c` and `d` are not read and not written. -/
def uG3TailAB {ε : Type} (k : Config) (src : WordSource ε) (rem : Nat) (q : Quad) : Except ε Quad :=
  g3Cascade src rem (g3UpdAB k.p4) (g3UpdBA k.p3) (g3UpdAB k.p2) (g3UpdBA k.p1) q

/-- `uG3TAILABCD((a, b, c, d), src, rem)` (R215). -/
def uG3TailABCD {ε : Type} (k : Config) (src : WordSource ε) (rem : Nat) (q : Quad) : Except ε Quad :=
  g3Cascade src rem (g3UpdAD k.p4) (g3UpdBA k.p3) (g3UpdCB k.p2) (g3UpdDC k.p1) q

/-- The bulk loop, only for inputs longer than a block, what follows it, and `REM` (R216, R217, R218). -/
def g3Bulk (k : Config) (m : Memory) (a : Discipline) (len : Nat) (after : Work → Work) (w : Work) : Except BusStop Work :=
  if 32 < len then
    match repeatBlocks (g3MemBlk k m a) 32 (len / 32) { w with phase := .bulk } with
    | .ok w => .ok (after { w with rem := .ofNat 6 (len % 32) })
    | .error x => .error x
  else .ok { w with rem := .ofNat 6 len }

/-- `PHASE <- FOLD` and the squash, on the 64-bit path only (R213, R216). -/
def g3Fold (k : Config) (w : Work) : Work := { w with phase := .fold, acc := uG3Squash k w.acc }

/-- The cascade of a one-shot command over the rest of its input; `POS` ends at the tail word (R214). -/
def g3MemTail (m : Memory) (a : Discipline) (tail : WordSource BusStop → Nat → Quad → Except BusStop Quad) (w : Work) :
    Except BusStop Work :=
  let rem := w.rem.toNat
  let w := { w with phase := cascadeEntry 8 rem }
  match tail (memSource m a w) rem w.acc with
  | .ok q => .ok ({ w with acc := q, phase := .final }.advance (8 * ((rem - 1) / 8)))
  | .error x => .error x

/-- The body of `HASH3` from `PHASE <- INIT` to the finisher's phase (R210, R216). -/
def g3Body (k : Config) (m : Memory) (a : Discipline) (seed len : U64) (w : Work) : Except BusStop Work := do
  let w ← g3Bulk k m a len.toNat (g3Fold k) { w with phase := .init, acc := uG3Init seed len }
  g3MemTail m a (uG3TailAB k) w

/-- The body of `HASH3X`: no squash, and the cascade over four accumulators (R210, R217). -/
def g3xBody (k : Config) (m : Memory) (a : Discipline) (seed len : U64) (w : Work) : Except BusStop Work := do
  let w ← g3Bulk k m a len.toNat id { w with phase := .init, acc := uG3Init seed len }
  g3MemTail m a (uG3TailABCD k) w

/-- `HASH3` after decoding (R216). -/
def hash3Body (a : Discipline) (s : State) : Except Raise State := do
  let s ← oneShot 8 a (g3Body s.cfg s.mem a s.seedX s.len) s
  .ok (s.withResult 0#64 (uFin64 s.cfg s.work.acc.a s.work.acc.b))

/-- `HASH3X` after decoding (R217). -/
def hash3xBody (a : Discipline) (s : State) : Except Raise State := do
  let s ← oneShot 8 a (g3xBody s.cfg s.mem a s.seedX s.len) s
  let r := uFin128 s.cfg s.work.acc.a s.work.acc.b s.work.acc.c s.work.acc.d
  .ok (s.withResult r.1 r.2)

/-- `HASH3[.u|.a]` (R216). -/
def execHash3 (a : Discipline) (s : State) : Host.Outcome State Fault Refusal :=
  .next (runCommand (.hash3 a) (hash3Body a) s)

/-- `HASH3X[.u|.a]` (R217). -/
def execHash3x (a : Discipline) (s : State) : Host.Outcome State Fault Refusal :=
  .next (runCommand (.hash3x a) (hash3xBody a) s)

end Sys2Proof.Machine
end

