-- ==== Sys2Proof/Machine/Streaming.lean ====
section
/-! DEFINITION. The streaming hasher: the buffering state machine and the commands SINIT, SUPD, SFIN, SFINX
(spec/45_streaming.md). -/

namespace Sys2Proof.Machine

open Sys2Proof

/-- A byte source of `uABSORB` (R245). Reading may stop the run with an `ε`. -/
structure ByteSource (ε : Type) where
  /-- `byte(j)`. -/
  byte : Nat → Except ε Byte
  /-- Word `i` of `block(j)`: the 8 bytes from `j + 8*i` on, little-endian. -/
  word : Nat → Nat → Except ε U64

/-- `mem(base)` (R245): single bytes by `uCOPYIN`, whole blocks by unaligned little-endian fetches. -/
def memBytes (m : Memory) (base : Nat) : ByteSource Nat where
  byte j := (m.read (base + j) 1).map fun bs => bs.headD 0#8
  word j i := (uFetch m 8 .little (base + j + 8 * i)).map (BitVec.ofNat 64)

/-- `const(m)` (R245): a byte string of the core's own, which cannot fail. The marker is 8 bytes long, so its blocks are never
asked for. -/
def constBytes (bs : List Byte) : ByteSource Empty where
  byte j := .ok (bs.getD j 0#8)
  word j i := .ok (.ofNat 64 (leValue ((bs.drop (j + 8 * i)).take 8)))

/-- The streaming hasher and `PHASE` inside `uABSORB` (R244). -/
structure Absorb where
  phase : Phase
  ctx : Stream
deriving DecidableEq, Repr

/-- A read that failed inside `uABSORB`, and how far it had come (R296). -/
structure AbsorbStop (ε : Type) where
  why : ε
  at_ : Absorb

/-- `FILL <- n`. -/
def Stream.withFill (x : Stream) (n : Nat) : Stream := { x with fill := .ofNat 6 n }

/-- `uCOPYIN` from a byte source (R137, R245): byte `j + i` of the source to `BUF[dst + i]`, in increasing order; bytes copied
before a failing one stay. -/
def copyIn {ε : Type} (src : ByteSource ε) : Nat → Nat → Nat → Absorb → Except (AbsorbStop ε) Absorb
  | _, _, 0, x => .ok x
  | j, dst, n + 1, x =>
    match src.byte j with
    | .ok b => copyIn src (j + 1) (dst + 1) n { x with ctx := { x.ctx with buf := x.ctx.buf.setIfInBounds dst b } }
    | .error y => .error ⟨y, x⟩

/-- `FILLBUF` (R242, R244): copies `chunk` bytes behind those the buffer holds. -/
def absorbFill {ε : Type} (src : ByteSource ε) (chunk : Nat) (x : Absorb) : Except (AbsorbStop ε) Absorb :=
  let fill := x.ctx.fill.toNat
  match copyIn src 0 fill chunk { x with phase := .fillBuf } with
  | .ok x => .ok { x with ctx := x.ctx.withFill (fill + chunk) }
  | .error y => .error y

/-- `DRAIN` (R242, R244): one block step over the buffer, and `FILL <- 0`; the bytes stay (10_state.md R51). -/
def absorbDrain (k : Config) (x : Absorb) : Absorb :=
  let buf := x.ctx.buf
  { phase := .drain
    ctx := { x.ctx with
      acc := uG3Blk k x.ctx.acc (uBufFetch buf 0) (uBufFetch buf 8) (uBufFetch buf 16) (uBufFetch buf 24)
      fill := 0#6 } }

/-- `DIRECT` (R242, R244): a block step for each of `n` whole blocks of the source, from byte `j` on. -/
def absorbDirect {ε : Type} (k : Config) (src : ByteSource ε) : Nat → Nat → Absorb → Except (AbsorbStop ε) Absorb
  | _, 0, x => .ok x
  | j, n + 1, x =>
    match (do let w0 ← src.word j 0
              let w1 ← src.word j 1
              let w2 ← src.word j 2
              let w3 ← src.word j 3
              .ok (uG3Blk k x.ctx.acc w0 w1 w2 w3) : Except ε Quad) with
    | .ok q => absorbDirect k src (j + 32) n { x with ctx := { x.ctx with acc := q } }
    | .error y => .error ⟨y, x⟩

/-- `STASH` (R242, R244): the last `n` bytes, from byte `j` on, to the start of the buffer. -/
def absorbStash {ε : Type} (src : ByteSource ε) (j n : Nat) (x : Absorb) : Except (AbsorbStop ε) Absorb :=
  if 0 < n then
    match copyIn src j 0 n { x with phase := .stash } with
    | .ok x => .ok { x with ctx := x.ctx.withFill n }
    | .error y => .error y
  else .ok { x with phase := .stash }

/-- `DIRECT` and `STASH` over the bytes from `j` on (R242): the loop turns while 32 bytes are left. -/
def absorbRest {ε : Type} (k : Config) (src : ByteSource ε) (j n : Nat) (x : Absorb) : Except (AbsorbStop ε) Absorb := do
  let blocks := (n - j) / 32
  let x ← absorbDirect k src j blocks { x with phase := .direct }
  absorbStash src (j + 32 * blocks) (n - j - 32 * blocks) x

/-- `uABSORB(src, n)` (R242): feeds `n` bytes of a source into the context. -/
def uAbsorb {ε : Type} (k : Config) (src : ByteSource ε) (n : Nat) (x : Absorb) : Except (AbsorbStop ε) Absorb :=
  let fill := x.ctx.fill.toNat
  if fill ≠ 0 then
    let chunk := min (32 - fill) n
    match absorbFill src chunk x with
    | .ok x => if fill + chunk < 32 then .ok x else absorbRest k src chunk n (absorbDrain k x)
    | .error y => .error y
  else absorbRest k src 0 n x

/-- `uMARKER(total)` (R246), before its bytes are taken: `(total << 3) XOR (1 << 63)`. -/
def markerWord (total : U64) : U64 := (total <<< 3) ^^^ 0x8000000000000000#64

/-- `uMARKER(total)` (R246). -/
def uMarker (total : U64) : List Byte := bytesLe8 (markerWord total)

/-- The result of a run over a source that cannot fail. -/
def noStop {ε α : Type} (absurd : ε → Empty) : Except ε α → α
  | .ok x => x
  | .error y => nomatch absurd y

/-- The marker absorbed; `TOTAL` itself is not changed (R247, R248). -/
def absorbMarker (k : Config) (x : Absorb) : Absorb :=
  noStop AbsorbStop.why (uAbsorb k (constBytes (uMarker x.ctx.total)) 8 x)

/-- The 64-bit digest of a context after its marker: squash, cascade over the buffer and `uFIN64`, on copies (R247). -/
def streamDigest64 (k : Config) (x : Stream) : U64 :=
  let q := noStop id (uG3TailAB k (bufSource x.buf) x.fill.toNat (uG3Squash k x.acc))
  uFin64 k q.a q.b

/-- The 128-bit digest of a context after its marker, as `(hi, lo)`: no squash (R248). -/
def streamDigest128 (k : Config) (x : Stream) : U64 × U64 :=
  let q := noStop id (uG3TailABCD k (bufSource x.buf) x.fill.toNat x.acc)
  uFin128 k q.a q.b q.c q.d

/-- The context and `PHASE` of a state, as `uABSORB` takes them. -/
def State.absorbing (s : State) : Absorb := ⟨s.work.phase, s.stream⟩

/-- The context and `PHASE` as `uABSORB` leaves them. -/
def State.withAbsorbed (s : State) (x : Absorb) : State :=
  { s with stream := x.ctx, work := { s.work with phase := x.phase } }

/-- `E_STREAM` unless the context is live (R243, R247, R248; 60_exceptions.md R297). -/
def needLive (s : State) (k : State → Except Raise State) : Except Raise State :=
  if s.stream.sstate = .live then k s else .error ⟨.stream, s.stream.sstate.code.setWidth 64, s⟩

/-- `SINIT` after decoding (R241). `BUF` is not cleared. -/
def sinitBody (s : State) : Except Raise State :=
  .ok (s.withStream { s.stream with acc := uG3Init s.seedX s.seedY, fill := 0#6, total := 0#64, sstate := .live })

/-- `SUPD` after decoding (R243). A bus error poisons the context and leaves the rest of it as far as the run had come
(60_exceptions.md R296). -/
def supdBody (s : State) : Except Raise State :=
  needLive s fun s =>
    if s.outOfRange then .error ⟨.range, s.addr, s⟩
    else
      let s := s.withWork { s.work with pos := s.addr }
      match uAbsorb s.cfg (memBytes s.mem s.addr.toNat) s.len.toNat s.absorbing with
      | .ok x => .ok (s.withAbsorbed { x with ctx := { x.ctx with total := x.ctx.total + s.len } })
      | .error y =>
        .error ⟨.bus, .ofNat 64 y.why, s.withAbsorbed { y.at_ with ctx := { y.at_.ctx with sstate := .none } }⟩

/-- `SFIN` after decoding (R247). -/
def sfinBody (s : State) : Except Raise State :=
  needLive s fun s =>
    let x := absorbMarker s.cfg s.absorbing
    .ok ((s.withAbsorbed { x with ctx := { x.ctx with sstate := .done } }).withResult 0#64 (streamDigest64 s.cfg x.ctx))

/-- `SFINX` after decoding (R248). -/
def sfinxBody (s : State) : Except Raise State :=
  needLive s fun s =>
    let x := absorbMarker s.cfg s.absorbing
    let r := streamDigest128 s.cfg x.ctx
    .ok ((s.withAbsorbed { x with ctx := { x.ctx with sstate := .done } }).withResult r.1 r.2)

/-- `SINIT` (R241). -/
def execSinit (s : State) : Host.Outcome State Fault Refusal := .next (runCommand .sinit sinitBody s)

/-- `SUPD` (R243). -/
def execSupd (s : State) : Host.Outcome State Fault Refusal := .next (runCommand .supd supdBody s)

/-- `SFIN` (R247). -/
def execSfin (s : State) : Host.Outcome State Fault Refusal := .next (runCommand .sfin sfinBody s)

/-- `SFINX` (R248). -/
def execSfinx (s : State) : Host.Outcome State Fault Refusal := .next (runCommand .sfinx sfinxBody s)

end Sys2Proof.Machine
end

