-- ==== Sys2Proof/Machine/Dispatch.lean ====
section
/-! DEFINITION. One arm per command (spec/30_encoding.md R110): the meaning each is given. -/

namespace Sys2Proof.Machine

open Sys2Proof

/-- The meaning of a command: what the `CMD` write that issues it does (R102). -/
def exec (i : Instr) (s : State) : Host.Outcome State Fault Refusal :=
  match i with
  | .nop => Sys2Proof.Machine.execNop s
  | .clrerr => Sys2Proof.Machine.execClrerr s
  | .hash0 e a => Sys2Proof.Machine.execHash0 e a s
  | .hash1 e a => Sys2Proof.Machine.execHash1 e a s
  | .hash2 e a => Sys2Proof.Machine.execHash2 e a s
  | .hash3 a => Sys2Proof.Machine.execHash3 a s
  | .hash3x a => Sys2Proof.Machine.execHash3x a s
  | .sinit => Sys2Proof.Machine.execSinit s
  | .supd => Sys2Proof.Machine.execSupd s
  | .sfin => Sys2Proof.Machine.execSfin s
  | .sfinx => Sys2Proof.Machine.execSfinx s
  | .ainit => Sys2Proof.Machine.execAinit s
  | .awrite e a => Sys2Proof.Machine.execAwrite e a s
  | .afin => Sys2Proof.Machine.execAfin s

end Sys2Proof.Machine
end

