-- ==== Sys2Proof/Machine/Step.lean ====
section
/-! DEFINITION. One step of the machine: the next event of the host or the platform takes full effect (spec/30_encoding.md R101,
R103, 20_memory.md R90). A step that issues a command is exactly that command's meaning. -/

namespace Sys2Proof.Machine

open Sys2Proof

/-- One step. With nothing pending the core is idle (70_reset_and_hazards.md R321). -/
def step (s : State) : Host.Outcome State Fault Refusal :=
  match s.due with
  | .idle => .next s
  | .command i => exec i s
  | .illegal v => .next (illegalCommand v s)
  | .write idx v => .next (writeRegister idx v s)
  | .read idx => .next (readRegister idx s)
  | .event ev => .next (environment ev s)

/-- The state with a command word, the low `nbits` bits of `w`, about to be written to `CMD`: the host's next transaction
is `WR 0x00` of it. The core has no program counter and fetches nothing from memory (10_state.md R38), so the port is where a
step takes its next command from (notes/assumptions/3.md). -/
def State.withFetchWord (s : State) (nbits w : Nat) : State :=
  { s with inbox := .port (encodeTransaction (.wr (indexOfReg .cmd) (.ofNat 64 (w % 2 ^ nbits)))) :: s.inbox }

end Sys2Proof.Machine
end

