-- ==== Sys2Proof/Machine/Assembler.lean ====
section
/-! DEFINITION. The host side: the assembler syntax of commands (spec/30_encoding.md R115) and the transactions a
pseudo-instruction expands to (R116). -/

namespace Sys2Proof.Machine

open Sys2Proof

/-- The suffix of a byte order (R115). -/
def endianSuffix : Endian → String
  | .little => ".le"
  | .big => ".be"

/-- The suffix of a discipline (R115). -/
def disciplineSuffix : Discipline → String
  | .unaligned => ".u"
  | .aligned => ".a"

/-- A command in assembler, suffixes written in full on the bits its row leaves free (R115). -/
def assembler : Instr → String
  | .nop => "NOP"
  | .clrerr => "CLRERR"
  | .hash0 e a => "HASH0" ++ endianSuffix e ++ disciplineSuffix a
  | .hash1 e a => "HASH1" ++ endianSuffix e ++ disciplineSuffix a
  | .hash2 e a => "HASH2" ++ endianSuffix e ++ disciplineSuffix a
  | .hash3 a => "HASH3" ++ disciplineSuffix a
  | .hash3x a => "HASH3X" ++ disciplineSuffix a
  | .sinit => "SINIT"
  | .supd => "SUPD"
  | .sfin => "SFIN"
  | .sfinx => "SFINX"
  | .ainit => "AINIT"
  | .awrite e a => "AWRITE" ++ endianSuffix e ++ disciplineSuffix a
  | .afin => "AFIN"

/-- `WR <reg>, <value>` (R115). -/
def wrReg (r : Reg) (v : U64) : Transaction := .wr (indexOfReg r) v

/-- `RD <reg>` (R115). -/
def rdReg (r : Reg) : Transaction := .rd (indexOfReg r)

/-- `<MNEMONIC>[.le|.be][.u|.a]`: one `WR` to `CMD` of the command word (R115). -/
def issue (i : Instr) : Transaction := wrReg .cmd (encodeDatum i)

/-- The operand writes of a one-shot hash, then its command (R116). -/
def hashCall (i : Instr) (addr len seed : U64) : List Transaction :=
  [wrReg .seedX seed, wrReg .addr addr, wrReg .len len, issue i]

/-- The transactions a pseudo-instruction expands to, in order (R116). -/
def expand : Pseudo → List Transaction
  | .hash0 e a addr len seed => hashCall (.hash0 e a) addr len seed
  | .hash1 e a addr len seed => hashCall (.hash1 e a) addr len seed
  | .hash2 e a addr len seed => hashCall (.hash2 e a) addr len seed
  | .hash3 a addr len seed => hashCall (.hash3 a) addr len seed
  | .hash3x a addr len seed => hashCall (.hash3x a) addr len seed
  | .sinit sx sy => [wrReg .seedX sx, wrReg .seedY sy, issue .sinit]
  | .supd addr len => [wrReg .addr addr, wrReg .len len, issue .supd]
  | .ainit s => [wrReg .seedX s, issue .ainit]
  | .awrite e a addr len => [wrReg .addr addr, wrReg .len len, issue (.awrite e a)]
  | .get64 => [rdReg .resLo]
  | .get128 => [rdReg .resLo, rdReg .resHi]

/-- A host program as the events it puts on the port (R101, R115). -/
def program (ps : List Transaction) : List HostEvent := ps.map fun t => .port (encodeTransaction t)

end Sys2Proof.Machine
end

