-- ==== Sys2Proof/Safety.lean ====
section
/-! DEFINITION. What the statements are said in: the conditions under which a command runs, the digests as functions of byte
lists alone (no memory, no page, no address, no working bank), and the invariant of the machine. -/

namespace Sys2Proof

/-! ### Kinds of command -/

/-- The one-shot hashes (30_encoding.md R110, group 0x1). -/
def Instr.oneShot : Instr → Bool
  | .hash0 _ _ | .hash1 _ _ | .hash2 _ _ | .hash3 _ | .hash3x _ => true
  | .nop | .clrerr | .sinit | .supd | .sfin | .sfinx | .ainit | .awrite _ _ | .afin => false

/-- The streaming commands (group 0x2). -/
def Instr.streaming : Instr → Bool
  | .sinit | .supd | .sfin | .sfinx => true
  | .nop | .clrerr | .hash0 _ _ | .hash1 _ _ | .hash2 _ _ | .hash3 _ | .hash3x _ | .ainit | .awrite _ _ | .afin => false

/-- The adapter's commands (group 0x3). -/
def Instr.adapter : Instr → Bool
  | .ainit | .awrite _ _ | .afin => true
  | .nop | .clrerr | .hash0 _ _ | .hash1 _ _ | .hash2 _ _ | .hash3 _ | .hash3x _ | .sinit | .supd | .sfin | .sfinx => false

/-- The commands that go through the dispatcher (46_dispatch_adapter_control.md R271). -/
def Instr.dispatched : Instr → Bool
  | .hash0 _ _ | .awrite _ _ => true
  | .nop | .clrerr | .hash1 _ _ | .hash2 _ _ | .hash3 _ | .hash3x _ | .sinit | .supd | .sfin | .sfinx | .ainit
  | .afin => false

/-- The commands that produce a digest in the result registers (10_state.md R37). -/
def Instr.producesDigest : Instr → Bool
  | .hash0 _ _ | .hash1 _ _ | .hash2 _ _ | .hash3 _ | .hash3x _ | .sfin | .sfinx | .afin => true
  | .nop | .clrerr | .sinit | .supd | .ainit | .awrite _ _ => false

/-- The command needs a live streaming context (60_exceptions.md R297). -/
def Instr.needsLive : Instr → Bool
  | .supd | .sfin | .sfinx => true
  | .nop | .clrerr | .hash0 _ _ | .hash1 _ _ | .hash2 _ _ | .hash3 _ | .hash3x _ | .sinit | .ainit | .awrite _ _
  | .afin => false

/-- The command needs the adapter (60_exceptions.md R301). -/
def Instr.needsAdapter : Instr → Bool
  | .awrite _ _ | .afin => true
  | .nop | .clrerr | .hash0 _ _ | .hash1 _ _ | .hash2 _ _ | .hash3 _ | .hash3x _ | .sinit | .supd | .sfin | .sfinx
  | .ainit => false

/-- The same command under a discipline; a command without an `A` bit is its own (30_encoding.md R110). -/
def Instr.withDiscipline (a : Discipline) : Instr → Instr
  | .hash0 e _ => .hash0 e a
  | .hash1 e _ => .hash1 e a
  | .hash2 e _ => .hash2 e a
  | .hash3 _ => .hash3 a
  | .hash3x _ => .hash3x a
  | .awrite e _ => .awrite e a
  | .nop => .nop
  | .clrerr => .clrerr
  | .sinit => .sinit
  | .supd => .supd
  | .sfin => .sfin
  | .sfinx => .sfinx
  | .ainit => .ainit
  | .afin => .afin

end Sys2Proof

namespace Sys2Proof.Machine

open Sys2Proof

/-! ### When a command runs -/

/-- The command that is written next is neither ignored nor refused: the core is not halted, the buffer invariant holds, no
error is pending (30_encoding.md R102, 60_exceptions.md R299 orders 1 to 3). -/
structure State.Accepts (s : State) : Prop where
  running : s.halt = false
  fill : s.stream.fill.toNat < 32
  noError : s.err = .none

/-- Byte `i` of the input of a command: its address as an integer, `x[ADDR] + i` (20_memory.md R70). -/
def State.inputAddr (s : State) (i : Nat) : Nat := s.addr.toNat + i

/-- The input of a command: the `x[LEN]` bytes from `x[ADDR]` on (R70). -/
def State.input (s : State) : List Byte := s.mem.bytes s.addr.toNat s.len.toNat

/-- The input of a command ends within the address space (60_exceptions.md R294). -/
abbrev State.InRange (s : State) : Prop := s.addr.toNat + s.len.toNat ≤ 2 ^ 64

/-- `x[ADDR]` meets the discipline for words of `W` bytes (20_memory.md R78). -/
abbrev State.Aligned (s : State) (W : Nat) (a : Discipline) : Prop := a = .aligned → s.addr.toNat % W = 0

/-- Every page that holds a byte of the input is mapped (20_memory.md R85, R86). -/
abbrev State.InputMapped (s : State) : Prop := ∀ i < s.len.toNat, s.mem.mapped (s.inputAddr i) = true

/-- The word size of the body that the dispatcher's selection runs (46_dispatch_adapter_control.md R273). -/
def Impl.wordSize : Impl → Nat
  | .gen1 => 4
  | _ => 8

/-- The body `HASH0` and `AWRITE` run in a state: the cached one, or the one `CAP` selects (R271). -/
def State.resolved (s : State) : Impl := s.sel.getD (resolveCap s.cap)

/-- The state after a command that has completed, but for what the command itself writes: the event is taken, `CMD` holds
the word, `DONE` is set, and the scratch registers hold `w` (30_encoding.md R102, 10_state.md R33). -/
def State.ended (s : State) (i : Instr) (w : Work) : State :=
  { s with inbox := s.inbox.tail, reply := none, cmd := encode i, done := true, work := w, mem := s.mem.redraw }

/-- The state after a command that raised an error with nothing pending, but for what the command itself wrote: the event is
taken, `CMD` holds the word, `DONE` is clear, `PHASE` is `IDLE`, and the error registers hold the error (60_exceptions.md
R300). -/
def State.failed (s : State) (i : Instr) (e : ErrCode) (info : U64) : State :=
  { s with
    inbox := s.inbox.tail
    reply := none
    cmd := encode i
    done := false
    err := e
    errInfo := info
    work := { s.work with phase := .idle }
    mem := s.mem.redraw }

/-- The state after a command that was refused because an error is pending: only `CMD` and `DONE` show it (30_encoding.md
R102, 60_exceptions.md R303). -/
def State.refusedBy (s : State) (i : Instr) : State :=
  { s with inbox := s.inbox.tail, reply := none, cmd := encode i, done := false }

/-! ### The digests as functions of bytes -/

/-- The first `k` pieces of `n` bytes of a list; the last may be shorter. -/
def pieces (n : Nat) : Nat → List Byte → List (List Byte)
  | 0, _ => []
  | k + 1, bs => bs.take n :: pieces n k (bs.drop n)

/-- Word `i` of a block (20_memory.md R76). -/
def blockWord (e : Endian) (W : Nat) (b : List Byte) (i : Nat) : Nat := wordValue e ((b.drop (W * i)).take W)

/-- What is left of an input after its whole blocks. -/
def afterBlocks (size : Nat) (bs : List Byte) : List Byte := bs.drop (size * (bs.length / size))

/-- A tail cascade on the bytes it consumes. The bytes are cut into words of `W`, the last of them partial; the last word
takes the last update, the word before it the one before, and so on (40_memory_unit.md R132, 42_gen1_body.md R175,
43_gen2_body.md R194, 44_gen3_body.md R214, R215). -/
def cascadeSpec (W : Nat) (e : Endian) (updates : List (Nat → Quad → Quad)) (bs : List Byte) (q : Quad) : Quad :=
  let k := (bs.length + W - 1) / W
  ((updates.drop (updates.length - k)).zip (pieces W k bs)).foldl (fun q u => u.1 (wordValue e u.2) q) q

/-- A generation-1 block step on a block of bytes (42_gen1_body.md R172). -/
def g1Block (k : Config) (e : Endian) (q : Quad) (b : List Byte) : Quad :=
  let w := fun i => BitVec.ofNat 32 (blockWord e 4 b i)
  g1Mix k (w 0) (w 1) (w 2) (w 3) q

/-- A generation-2 block step on a block of bytes (43_gen2_body.md R191). -/
def g2Block (k : Config) (e : Endian) (q : Quad) (b : List Byte) : Quad :=
  let w := fun i => BitVec.ofNat 64 (blockWord e 8 b i)
  g2Mix k (w 0) (w 1) (w 2) (w 3) q

/-- A generation-3 block step on a block of bytes (44_gen3_body.md R211, 20_memory.md R77). -/
def g3Block (k : Config) (q : Quad) (b : List Byte) : Quad :=
  let w := fun i => BitVec.ofNat 64 (blockWord .little 8 b i)
  uG3Blk k q (w 0) (w 1) (w 2) (w 3)

/-- The generation-1 digest of a byte list (42_gen1_body.md R170, R176). -/
def hash1Spec (k : Config) (e : Endian) (seed : U64) (bs : List Byte) : U64 :=
  let q := uG1Init seed (.ofNat 64 bs.length) Quad.zero
  let tail := cascadeSpec 4 e [g1UpdAB k.q4, g1UpdBA k.q3, g1UpdAB k.q2, g1UpdBA k.q1]
  let q :=
    if 16 < bs.length then
      tail (afterBlocks 16 bs) (uG1Fold k ((pieces 16 (bs.length / 16) bs).foldl (g1Block k e) (uG1BulkInit q)))
    else tail bs q
  uFin32 k (lo32 q.a) (lo32 q.b)

/-- The generation-2 digest of a byte list (43_gen2_body.md R190, R195). -/
def hash2Spec (k : Config) (e : Endian) (seed : U64) (bs : List Byte) : U64 :=
  let len := BitVec.ofNat 64 bs.length
  let q := uG2Init seed len Quad.zero
  let tail := cascadeSpec 8 e [g2UpdB k k.p4, g2UpdA k k.p3, g2UpdB k k.p2, g2UpdA k k.p1]
  let q :=
    if 32 < bs.length then
      tail (afterBlocks 32 bs) (uG2Fold k ((pieces 32 (bs.length / 32) bs).foldl (g2Block k e) (uG2BulkInit seed len q)))
    else tail bs q
  uFinW k q.a q.b

/-- The generation-3 cascade of the 64-bit path on bytes (44_gen3_body.md R214). -/
def g3TailAB (k : Config) : List Byte → Quad → Quad :=
  cascadeSpec 8 .little
    [fun x => g3UpdAB k.p4 (.ofNat 64 x), fun x => g3UpdBA k.p3 (.ofNat 64 x), fun x => g3UpdAB k.p2 (.ofNat 64 x),
     fun x => g3UpdBA k.p1 (.ofNat 64 x)]

/-- The generation-3 cascade of the 128-bit path on bytes (44_gen3_body.md R215). -/
def g3TailABCD (k : Config) : List Byte → Quad → Quad :=
  cascadeSpec 8 .little
    [fun x => g3UpdAD k.p4 (.ofNat 64 x), fun x => g3UpdBA k.p3 (.ofNat 64 x), fun x => g3UpdCB k.p2 (.ofNat 64 x),
     fun x => g3UpdDC k.p1 (.ofNat 64 x)]

/-- The 64-bit generation-3 digest of a byte list (44_gen3_body.md R210, R216). -/
def hash3Spec (k : Config) (seed : U64) (bs : List Byte) : U64 :=
  let q := uG3Init seed (.ofNat 64 bs.length)
  let q :=
    if 32 < bs.length then
      g3TailAB k (afterBlocks 32 bs) (uG3Squash k ((pieces 32 (bs.length / 32) bs).foldl (g3Block k) q))
    else g3TailAB k bs q
  uFin64 k q.a q.b

/-- The 128-bit generation-3 digest of a byte list, as `(hi, lo)` (44_gen3_body.md R210, R217). -/
def hash3xSpec (k : Config) (seed : U64) (bs : List Byte) : U64 × U64 :=
  let q := uG3Init seed (.ofNat 64 bs.length)
  let q :=
    if 32 < bs.length then g3TailABCD k (afterBlocks 32 bs) ((pieces 32 (bs.length / 32) bs).foldl (g3Block k) q)
    else g3TailABCD k bs q
  uFin128 k q.a q.b q.c q.d

/-- The digest of the body the dispatcher selects, where this hardware has that body (46_dispatch_adapter_control.md
R273). -/
def body0Spec (k : Config) (impl : Impl) (e : Endian) (seed : U64) (bs : List Byte) : U64 :=
  match impl with
  | .gen1 => hash1Spec k e seed bs
  | _ => hash2Spec k e seed bs

/-! ### The streaming hasher as a function of bytes -/

/-- The bytes the carry buffer holds (10_state.md R47). -/
def Stream.pending (x : Stream) : List Byte := bufRead x.buf 0 x.fill.toNat

/-- The block steps over the whole blocks of a byte list, from an accumulator state on (45_streaming.md R242). -/
def feedBlocks (k : Config) (q : Quad) (bs : List Byte) : Quad := (pieces 32 (bs.length / 32) bs).foldl (g3Block k) q

/-- The accumulators and the pending bytes of a context after it has consumed more bytes (R242): the pending bytes and the
new ones are one byte string, its whole blocks go through the block step, the rest stays pending. -/
def Stream.fed (k : Config) (x : Stream) (bs : List Byte) : Quad × List Byte :=
  (feedBlocks k x.acc (x.pending ++ bs), afterBlocks 32 (x.pending ++ bs))

/-- The accumulators and the pending bytes of a context after its marker (R246, R247). -/
def Stream.marked (k : Config) (x : Stream) : Quad × List Byte := x.fed k (uMarker x.total)

/-- A context holds exactly the byte string `M` under the seeds `x` and `y`: invariants I-BUF and I-TOTAL (10_state.md R49,
R50). -/
structure Stream.Holds (k : Config) (x y : U64) (M : List Byte) (c : Stream) : Prop where
  live : c.sstate = .live
  acc : c.acc = feedBlocks k (uG3Init x y) M
  fill : c.fill.toNat = M.length % 32
  pending : c.pending = afterBlocks 32 M
  total : c.total = .ofNat 64 M.length

/-- The 64-bit digest of a byte string under two seeds (45_streaming.md R247). -/
def streamHash64 (k : Config) (x y : U64) (M : List Byte) : U64 :=
  let all := M ++ uMarker (.ofNat 64 M.length)
  let q := g3TailAB k (afterBlocks 32 all) (uG3Squash k (feedBlocks k (uG3Init x y) all))
  uFin64 k q.a q.b

/-- The 128-bit digest of a byte string under two seeds, as `(hi, lo)` (45_streaming.md R248). -/
def streamHash128 (k : Config) (x y : U64) (M : List Byte) : U64 × U64 :=
  let all := M ++ uMarker (.ofNat 64 M.length)
  let q := g3TailABCD k (afterBlocks 32 all) (feedBlocks k (uG3Init x y) all)
  uFin128 k q.a q.b q.c q.d

/-! ### Errors before the first read -/

/-- The body a selection names is one this hardware has (46_dispatch_adapter_control.md R273). -/
def Impl.present : Impl → Bool
  | .gen1 | .gen2 => true
  | .narrowRound | .narrowSimd | .wideSimd => false

/-- The word size and the discipline of a memory-reading command in a state; none for the rest (20_memory.md R78; `SUPD` reads
bytes and whole blocks, which need no alignment). -/
def State.reads (s : State) : Instr → Option (Nat × Discipline)
  | .hash0 _ a | .awrite _ a => some (s.resolved.wordSize, a)
  | .hash1 _ a => some (4, a)
  | .hash2 _ a => some (8, a)
  | .hash3 a | .hash3x a => some (8, a)
  | .supd => some (1, .unaligned)
  | .nop | .clrerr | .sinit | .sfin | .sfinx | .ainit | .afin => none

/-- The error a command raises before it reads memory, by the priority of 60_exceptions.md R299, orders 5 to 8. -/
def State.violation (s : State) (i : Instr) : Option (ErrCode × U64) :=
  if i.needsLive ∧ s.stream.sstate ≠ .live then some (.stream, s.stream.sstate.code.setWidth 64)
  else if i.needsAdapter ∧ s.avalid = false then some (.adapt, 0#64)
  else if i.dispatched ∧ s.resolved.present = false then some (.engine, (selWord (some s.resolved)).setWidth 64)
  else
    match s.reads i with
    | none => none
    | some (W, a) =>
      if a = .aligned ∧ s.addr.toNat % W ≠ 0 then some (.align, s.addr)
      else if 2 ^ 64 < s.addr.toNat + s.len.toNat then some (.range, s.addr)
      else none

/-- `SEL` after a command has passed the checks that precede resolution (46_dispatch_adapter_control.md R271, R272, R275). -/
def State.selAfter (s : State) (i : Instr) : Option Impl :=
  if i.dispatched ∧ ¬(i.needsAdapter ∧ s.avalid = false) then some s.resolved else s.sel

/-- The address `E_BUS` records when input byte `j` is the first that is unmapped (60_exceptions.md R295, with the reads of
20_memory.md R83, R84): that byte; but for an input shorter than a word whose one read is an underside read from an unmapped
page, the start of that read, `x[ADDR] + x[LEN] - W`. -/
def State.busAddress (s : State) (W : Nat) (a : Discipline) (j : Nat) : Nat :=
  if a = .unaligned ∧ W ≤ s.addr.toNat % pageSize ∧ s.len.toNat < W ∧ s.mem.mapped s.addr.toNat = false then
    s.addr.toNat + s.len.toNat - W
  else s.inputAddr j

/-! ### Runs and the invariant -/

/-- The states the machine can be in after reset, whatever the host and the platform do (70_reset_and_hazards.md R320,
R321). -/
inductive Reachable : State → Prop where
  | reset (evs : List HostEvent) : Reachable { State.reset with inbox := evs }
  | step {s t : State} : Reachable s → Machine.step s = .next t → Reachable t


/-- What every reachable state satisfies. -/
structure State.Inv (s : State) : Prop where
  /-- The memory is in its canonical form. -/
  memory : s.mem.wf
  /-- Invariant I-FILL (10_state.md R48). -/
  fill : s.stream.fill.toNat ≤ 31
  /-- `FILL` is `TOTAL` modulo 32 while the context is live (10_state.md R49, R50). -/
  live : s.stream.sstate = .live → s.stream.fill.toNat = s.stream.total.toNat % 32
  /-- `PHASE` is `IDLE` between commands (10_state.md R38). -/
  idle : s.work.phase = .idle
  /-- `REM` is at most 32 (10_state.md R38). -/
  rem : s.work.rem.toNat ≤ 32
  /-- The core is not halted (60_exceptions.md R298: unreachable). -/
  running : s.halt = false
  /-- No fatal error is recorded. -/
  notFatal : s.err ≠ .fatal
  /-- With no error pending, `ERRINFO` is 0 (60_exceptions.md R290). -/
  errInfo : s.err = .none → s.errInfo = 0#64
  /-- `CAP` is constant after reset (10_state.md R45). -/
  cap : s.cap = s.cfg.capReset
  /-- The cached selection is what `CAP` selects (46_dispatch_adapter_control.md R271). -/
  sel : s.sel = none ∨ s.sel = some (resolveCap s.cap)

end Sys2Proof.Machine
end

