-- ==== Sys2Proof/WellFormed.lean ====
section
/-! DEFINITION. Well-formedness: which command words are legal (spec/30_encoding.md R110, R112), and which configurations a
machine may have (spec/10_state.md R45). The decoder of Decode.lean is written from another rule (R114) and does not call
these checks; that the two agree is a statement. -/

namespace Sys2Proof

/-- One row of the opcode map: a word `w` is the row's command when `(w & mask) = match` (R110). -/
structure OpcodeRow where
  pattern : BitVec 32
  mask : BitVec 32
deriving DecidableEq, Repr

/-- The match and mask columns of R110, in its order. -/
def opcodeRows : List OpcodeRow :=
  [⟨0x00000000#32, 0xFFFFFFFF#32⟩, ⟨0x00000001#32, 0xFFFFFFFF#32⟩, ⟨0x00000010#32, 0xFFFFFCFF#32⟩,
   ⟨0x00000011#32, 0xFFFFFCFF#32⟩, ⟨0x00000012#32, 0xFFFFFCFF#32⟩, ⟨0x00000013#32, 0xFFFFFDFF#32⟩,
   ⟨0x00000014#32, 0xFFFFFDFF#32⟩, ⟨0x00000020#32, 0xFFFFFFFF#32⟩, ⟨0x00000021#32, 0xFFFFFFFF#32⟩,
   ⟨0x00000022#32, 0xFFFFFFFF#32⟩, ⟨0x00000023#32, 0xFFFFFFFF#32⟩, ⟨0x00000030#32, 0xFFFFFFFF#32⟩,
   ⟨0x00000031#32, 0xFFFFFCFF#32⟩, ⟨0x00000032#32, 0xFFFFFFFF#32⟩]

/-- The row matches the word (R110). -/
def OpcodeRow.covers (r : OpcodeRow) (w : BitVec 32) : Bool := w &&& r.mask == r.pattern

/-- A 64-bit datum is a legal command: the high half is zero and a row of the map covers the low half (R41, R112). -/
def legalDatum (v : U64) : Bool :=
  v.extractLsb' 32 32 == 0#32 && opcodeRows.any (·.covers (v.extractLsb' 0 32))

/-- An instruction is well-formed when it carries exactly the bits its row leaves free (R110, R111). The constructors carry
no others, so every instruction is. -/
def Instr.wellFormed : Instr → Bool
  | .nop | .clrerr | .sinit | .supd | .sfin | .sfinx | .ainit | .afin => true
  | .hash3 _ | .hash3x _ => true
  | .hash0 _ _ | .hash1 _ _ | .hash2 _ _ | .awrite _ _ => true

/-- A configuration is well-formed when the reserved bits 31:4 of `CAP_RESET` are zero (R45, 93_implementation_defined.md
part 3). -/
def Config.wellFormed (c : Config) : Bool := c.capReset.extractLsb' 4 28 == 0#28

end Sys2Proof
end

