-- ==== Sys2Proof/Certificates/Slice0/Obligations.lean ====
section
/-! DEFINITION. The statements for the provers. Each is about every state unless it says otherwise. A statement of a command's
result ends in the very state the command leaves, so it says that the command completes, what it writes and, since the state
is a record update of the state before, what it leaves alone.

Three things in these states are the model's own and not the spec's: `inbox` and `reply`, the host port
(notes/assumptions/3.md), and the draw counter that `redraw` advances (notes/assumptions/5.md). That the scratch registers hold
after a command what its pseudocode left there is the model's choice too (notes/assumptions/4.md). -/

open Sys2Proof Sys2Proof.Machine

/-! ### Encoding -/

/-- The decoder reads every well-formed command back from the datum the encoder writes, and reads a command from no other
datum: no bit of a command word is dropped and none is ignored. -/
def Obligations.DecodeEncodeAgree : Prop :=
  (∀ i : Instr, i.wellFormed = true → decode (encodeDatum i) = .ok i) ∧
  ∀ (v : U64) (i : Instr), decode v = .ok i → v = encodeDatum i

/-- The decoder (R114) accepts exactly the data that the opcode map calls legal (R110, R112), and they are 28. -/
def Obligations.LegalWords : Prop :=
  (∀ v : U64, legalDatum v = true ↔ ∃ i, decode v = .ok i) ∧
  ∃ l : List U64, l.Nodup ∧ l.length = 28 ∧ ∀ v : U64, legalDatum v = true ↔ v ∈ l

/-- The 70-bit pattern of a transaction (R101): it reads back, a `WR` pattern has no bit to spare, and the data of a `RD` is
ignored. -/
def Obligations.TransactionPattern : Prop :=
  (∀ t : Transaction, decodeTransaction (encodeTransaction t) = t) ∧
  (∀ p : BitVec 70, p.getLsbD 69 = true → encodeTransaction (decodeTransaction p) = p) ∧
  ∀ p : BitVec 70, p.getLsbD 69 = false → decodeTransaction p = .rd (p.extractLsb' 64 5)

/-- The command words of R117 and R118, written out, decode to the commands they stand for, and the illegal ones of R118 do
not decode. -/
def Obligations.WorkedEncodings : Prop :=
  decode 0x0000000000000011#64 = .ok (.hash1 .little .unaligned) ∧
  decode 0x0000000000000111#64 = .ok (.hash1 .big .unaligned) ∧
  decode 0x0000000000000012#64 = .ok (.hash2 .little .unaligned) ∧
  decode 0x0000000000000312#64 = .ok (.hash2 .big .aligned) ∧
  decode 0x0000000000000213#64 = .ok (.hash3 .aligned) ∧
  decode 0x0000000000000014#64 = .ok (.hash3x .unaligned) ∧
  decode 0x0000000000000021#64 = .ok .supd ∧
  decode 0x0000000000000113#64 = .error .fixedBit ∧
  decode 0x0000000000000412#64 = .error .reservedBits ∧
  decode 0x0000000100000012#64 = .error .highHalf ∧
  decodeTransaction 0x2B0000000000000040#70 = .wr 0x0B#5 64#64

/-- A register is found at its index and at no other, and every other index is reserved (R40). -/
def Obligations.RegisterIndices : Prop := ∀ (idx : BitVec 5) (r : Reg), regOfIndex idx = some r ↔ idx = indexOfReg r

/-! ### The step -/

/-- When the transaction at the head of the port is a write to `CMD` of a datum that decodes to a command, the step is that
command's meaning; with nothing on the port the core stays as it is. -/
def Obligations.StepRunsCommand : Prop :=
  (∀ (s : State) (p : BitVec 70) (rest : List HostEvent) (v : U64) (i : Instr),
    s.inbox = .port p :: rest → decodeTransaction p = .wr 0x00#5 v → decode v = .ok i → step s = exec i s) ∧
  ∀ s : State, s.inbox = [] → step s = .next s

/-- The transaction the assembler issues for a command makes the step that command's meaning (R115). -/
def Obligations.IssuedCommandRuns : Prop :=
  ∀ (s : State) (i : Instr) (rest : List HostEvent), s.inbox = .port (encodeTransaction (issue i)) :: rest →
    step s = exec i s

/-- Nothing stops the machine: every step answers a next state, whatever the state and the host's event. -/
def Obligations.StepNeverStops : Prop := ∀ s : State, ∃ t : State, step s = .next t

/-! ### Reset -/

/-- The values R56 gives, in the state right after reset. What R56 calls unspecified is not mentioned. -/
def Obligations.ResetValues : Prop :=
  State.reset.cmd = 0#32 ∧ State.reset.status = 0#32 ∧ State.reset.err.word = 0#32 ∧ State.reset.errInfo = 0#64 ∧
  selWord State.reset.sel = 0#32 ∧ State.reset.cap = 0x00000001#32 ∧
  State.reset.seedX = 0#64 ∧ State.reset.seedY = 0#64 ∧ State.reset.addr = 0#64 ∧ State.reset.len = 0#64 ∧
  State.reset.resLo = 0#64 ∧ State.reset.resHi = 0#64 ∧
  State.reset.work.phase = .idle ∧ State.reset.stream.sstate = .none ∧ State.reset.stream.fill = 0#6 ∧
  State.reset.stream.total = 0#64 ∧ State.reset.avalid = false

/-- The reset input, from any state, halted or not: the registers take the values R320 gives, and memory, parameters and the
host's further events stay. -/
def Obligations.ResetEvent : Prop :=
  ∀ (s : State) (rest : List HostEvent), s.inbox = .reset :: rest →
    ∃ t : State, step s = .next t ∧
      t.cmd = 0#32 ∧ t.status = 0#32 ∧ t.err = .none ∧ t.errInfo = 0#64 ∧ t.sel = none ∧ t.cap = s.cfg.capReset ∧
      t.seedX = 0#64 ∧ t.seedY = 0#64 ∧ t.addr = 0#64 ∧ t.len = 0#64 ∧ t.resLo = 0#64 ∧ t.resHi = 0#64 ∧
      t.work.phase = .idle ∧ t.stream.sstate = .none ∧ t.stream.fill = 0#6 ∧ t.stream.total = 0#64 ∧ t.avalid = false ∧
      t.mem = s.mem ∧ t.cfg = s.cfg ∧ t.inbox = rest

/-- The first command after reset, each of the fourteen (R325). -/
def Obligations.FirstCommands : Prop :=
  (∃ t, exec (.hash1 .little .unaligned) State.reset = .next t ∧
    t.resLo = 0#64 ∧ t.resHi = 0#64 ∧ t.status = 0x01#32) ∧
  (∃ t, exec (.hash2 .little .unaligned) State.reset = .next t ∧ t.resLo = 0#64 ∧ t.status = 0x01#32) ∧
  (∃ t, exec (.hash0 .little .unaligned) State.reset = .next t ∧
    selWord t.sel = 0x9#32 ∧ t.resLo = 0#64 ∧ t.status = 0x11#32) ∧
  (∃ t, exec (.hash3 .unaligned) State.reset = .next t ∧ t.resLo = 0#64 ∧ t.status = 0x01#32) ∧
  (∃ t, exec (.hash3x .unaligned) State.reset = .next t ∧
    t.resHi = 0x87971BDCEFD96B8D#64 ∧ t.resLo = 0x4EC7F6A48E33B00A#64 ∧ t.status = 0x01#32) ∧
  (∃ t, exec .sinit State.reset = .next t ∧
    t.stream.acc = ⟨0#64, 0#64, 0xFFFFFFFFFFFFFFFF#64, 0xFFFFFFFFFFFFFFFF#64⟩ ∧ t.status = 0x05#32) ∧
  (∀ i ∈ [Instr.supd, .sfin, .sfinx], ∃ t, exec i State.reset = .next t ∧
    t.err.word = 6#32 ∧ t.errInfo = 0#64 ∧ t.status = 0x02#32) ∧
  (∃ t, exec .ainit State.reset = .next t ∧ t.astate = 0#64 ∧ t.status = 0x21#32) ∧
  (∀ i ∈ [Instr.awrite .little .unaligned, .afin], ∃ t, exec i State.reset = .next t ∧
    t.err.word = 7#32 ∧ t.errInfo = 0#64 ∧ t.status = 0x02#32) ∧
  ∀ i ∈ [Instr.nop, .clrerr], ∃ t, exec i State.reset = .next t ∧ t.status = 0x01#32

/-! ### Registers -/

/-- A `RD` of a register answers it zero-extended and changes nothing, halted or not (R40, R101): a register wider than its
fields reads 0 above them. -/
def Obligations.ReadRegisters : Prop :=
  (∀ (s : State) (p : BitVec 70) (rest : List HostEvent) (idx : BitVec 5) (r : Reg),
    s.inbox = .port p :: rest → decodeTransaction p = .rd idx → regOfIndex idx = some r →
    step s = .next { s with inbox := rest, reply := some (regValue s r) }) ∧
  ∀ s : State,
    regValue s .cmd = s.cmd.setWidth 64 ∧ regValue s .errInfo = s.errInfo ∧ regValue s .seedX = s.seedX ∧
    regValue s .seedY = s.seedY ∧ regValue s .addr = s.addr ∧ regValue s .len = s.len ∧ regValue s .resLo = s.resLo ∧
    regValue s .resHi = s.resHi ∧ (regValue s .err).toNat = s.err.code.toNat ∧
    (∀ k < 64, (regValue s .cap).getLsbD k = (decide (k < 4) && s.cap.getLsbD k)) ∧
    (s.sel = none → regValue s .sel = 0#64) ∧
    ∀ x : Impl, s.sel = some x → (regValue s .sel).toNat = x.code.toNat + 8

/-- The bits of `STATUS` (R43): each is the view R43 names, `BUSY` and the reserved bits read 0. -/
def Obligations.StatusBits : Prop :=
  ∀ s : State,
    s.status.getLsbD 0 = s.done ∧ s.status.getLsbD 1 = decide (s.err ≠ .none) ∧
    s.status.getLsbD 2 = decide (s.stream.sstate = .live) ∧ s.status.getLsbD 3 = decide (s.stream.sstate = .done) ∧
    s.status.getLsbD 4 = s.sel.isSome ∧ s.status.getLsbD 5 = s.avalid ∧ s.status.getLsbD 6 = s.halt ∧
    (∀ k, 7 ≤ k → s.status.getLsbD k = false) ∧ regValue s .status = s.status.setWidth 64

/-- The operand registers (R36): the host reads them, and writes them while the core is not halted, the write changes nothing
else (a streaming context included), and no step but such a write or reset changes them, so a command reads them and leaves
them. -/
def Obligations.OperandRegisters : Prop :=
  (∀ (s : State) (p : BitVec 70) (rest : List HostEvent) (idx : BitVec 5) (v : U64),
    s.inbox = .port p :: rest → decodeTransaction p = .wr idx v → s.halt = false →
    (idx = 0x08#5 → step s = .next { s with inbox := rest, reply := none, seedX := v }) ∧
    (idx = 0x09#5 → step s = .next { s with inbox := rest, reply := none, seedY := v }) ∧
    (idx = 0x0A#5 → step s = .next { s with inbox := rest, reply := none, addr := v }) ∧
    (idx = 0x0B#5 → step s = .next { s with inbox := rest, reply := none, len := v })) ∧
  (∀ (s : State) (p : BitVec 70) (rest : List HostEvent) (idx : BitVec 5),
    s.inbox = .port p :: rest → decodeTransaction p = .rd idx →
    (idx = 0x08#5 → step s = .next { s with inbox := rest, reply := some s.seedX }) ∧
    (idx = 0x09#5 → step s = .next { s with inbox := rest, reply := some s.seedY }) ∧
    (idx = 0x0A#5 → step s = .next { s with inbox := rest, reply := some s.addr }) ∧
    (idx = 0x0B#5 → step s = .next { s with inbox := rest, reply := some s.len })) ∧
  (∀ s t : State, step s = .next t → s.due ≠ .event .reset →
    (t.seedX = s.seedX ∨ s.due = .write 0x08#5 t.seedX) ∧ (t.seedY = s.seedY ∨ s.due = .write 0x09#5 t.seedY) ∧
    (t.addr = s.addr ∨ s.due = .write 0x0A#5 t.addr) ∧ (t.len = s.len ∨ s.due = .write 0x0B#5 t.len)) ∧
  State.reset.seedX = 0#64 ∧ State.reset.seedY = 0#64 ∧ State.reset.addr = 0#64 ∧ State.reset.len = 0#64

/-- A write to a read-only register or a reserved index, and a read of a reserved index, change no register but the error
registers, and those only when no error is pending; the read answers 0 (R42, R292). -/
def Obligations.BadRegisterAccess : Prop :=
  (∀ (s : State) (p : BitVec 70) (rest : List HostEvent) (idx : BitVec 5) (v : U64),
    s.inbox = .port p :: rest → decodeTransaction p = .wr idx v → s.halt = false →
    (1 ≤ idx.toNat ∧ idx.toNat ≤ 7 ∨ 12 ≤ idx.toNat) →
    (s.err = .none →
      step s = .next { s with inbox := rest, reply := none, err := .reg, errInfo := idx.setWidth 64 }) ∧
    (s.err ≠ .none → step s = .next { s with inbox := rest, reply := none })) ∧
  (∀ (s : State) (p : BitVec 70) (rest : List HostEvent) (idx : BitVec 5),
    s.inbox = .port p :: rest → decodeTransaction p = .rd idx →
    (idx.toNat = 6 ∨ idx.toNat = 7 ∨ 14 ≤ idx.toNat) →
    (s.err = .none →
      step s = .next { s with inbox := rest, reply := some 0#64, err := .reg, errInfo := idx.setWidth 64 }) ∧
    (s.err ≠ .none → step s = .next { s with inbox := rest, reply := some 0#64 })) ∧
  ∀ (s : State) (p : BitVec 70) (rest : List HostEvent) (idx : BitVec 5) (v : U64),
    s.inbox = .port p :: rest → decodeTransaction p = .wr idx v → s.halt = true →
    step s = .next { s with inbox := rest, reply := none }

/-! ### Errors -/

/-- While an error is pending a command other than `NOP` and `CLRERR` is refused without a trace but `CMD` and `DONE`, an
illegal word too, and the error registers change only by `CLRERR`, reset and `E_FATAL` (R303). -/
def Obligations.FirstErrorWins : Prop :=
  (∀ (i : Instr) (s : State), s.halt = false → s.stream.fill.toNat < 32 → s.err ≠ .none → i ≠ .nop → i ≠ .clrerr →
    exec i s = .next (s.refusedBy i)) ∧
  (∀ (s : State) (v : U64), s.due = .illegal v → s.halt = false → s.stream.fill.toNat < 32 → s.err ≠ .none →
    step s = .next { s with inbox := s.inbox.tail, reply := none, cmd := v.setWidth 32, done := false }) ∧
  ∀ s t : State, step s = .next t → s.err ≠ .none →
    (t.err = s.err ∧ t.errInfo = s.errInfo) ∨ s.due = .command .clrerr ∨ s.due = .event .reset ∨
    (t.err = .fatal ∧ t.halt = true)

/-- A datum that is no command, written with no error pending: `E_ILLEGAL` with the datum, `CMD` and `DONE`, and nothing else
(R291). -/
def Obligations.IllegalCommand : Prop :=
  ∀ (s : State) (p : BitVec 70) (rest : List HostEvent) (v : U64),
    s.inbox = .port p :: rest → decodeTransaction p = .wr 0x00#5 v → (∀ i, decode v ≠ .ok i) →
    s.halt = false → s.stream.fill.toNat < 32 →
    (s.err = .none → step s = .next { s with
      inbox := rest, reply := none, cmd := v.setWidth 32, done := false, err := .illegal, errInfo := v,
      work := { s.work with phase := .idle } }) ∧
    (s.err ≠ .none → step s = .next { s with inbox := rest, reply := none, cmd := v.setWidth 32, done := false })

/-- `E_FATAL` (R298): a command written while `FILL` is 32 or more is not executed, whatever error is pending; the core halts.
While it is halted every write is ignored, every read works, and only reset leads out. From reset it never comes to this. -/
def Obligations.FatalHalts : Prop :=
  (∀ (i : Instr) (s : State), s.halt = false → 32 ≤ s.stream.fill.toNat →
    exec i s = .next { s with
      inbox := s.inbox.tail, reply := none, cmd := encode i, done := false, err := .fatal,
      errInfo := s.stream.fill.setWidth 64, halt := true, work := { s.work with phase := .idle } }) ∧
  (∀ (s : State) (v : U64), s.due = .illegal v → s.halt = false → 32 ≤ s.stream.fill.toNat →
    step s = .next { s with
      inbox := s.inbox.tail, reply := none, cmd := v.setWidth 32, done := false, err := .fatal,
      errInfo := s.stream.fill.setWidth 64, halt := true, work := { s.work with phase := .idle } }) ∧
  (∀ (s : State) (p : BitVec 70) (rest : List HostEvent) (idx : BitVec 5) (v : U64),
    s.halt = true → s.inbox = .port p :: rest → decodeTransaction p = .wr idx v →
    step s = .next { s with inbox := rest, reply := none }) ∧
  (∀ (s : State) (p : BitVec 70) (rest : List HostEvent) (idx : BitVec 5),
    s.halt = true → s.err = .fatal → s.inbox = .port p :: rest → decodeTransaction p = .rd idx →
    step s = .next { s with inbox := rest, reply := some ((regOfIndex idx).elim 0#64 (regValue s)) }) ∧
  (∀ s t : State, s.halt = true → step s = .next t → s.due ≠ .event .reset → t.halt = true) ∧
  (∀ (s : State) (rest : List HostEvent), s.inbox = .reset :: rest → ∃ t : State, step s = .next t ∧ t.halt = false) ∧
  ∀ s : State, Reachable s → s.halt = false ∧ s.err ≠ .fatal ∧ s.stream.fill.toNat < 32

/-- `E_STREAM` (R297): a streaming command other than `SINIT` on a context that is not live records `SSTATE` and changes
nothing of the context; with a live context it never happens. -/
def Obligations.StreamError : Prop :=
  (∀ (i : Instr) (s : State), s.Accepts → i.needsLive = true → s.stream.sstate ≠ .live →
    exec i s = .next (s.failed i .stream (s.stream.sstate.code.setWidth 64))) ∧
  ∀ (i : Instr) (s t : State), s.err = .none → exec i s = .next t → t.err = .stream →
    i.needsLive = true ∧ s.stream.sstate ≠ .live

/-- `E_ADAPT` (R301): `AWRITE` or `AFIN` before `AINIT` records 0 and does not resolve `SEL`; `AVALID` is 0 after reset, and
no step but reset clears it. -/
def Obligations.AdapterError : Prop :=
  (∀ (i : Instr) (s : State), s.Accepts → i.needsAdapter = true → s.avalid = false →
    exec i s = .next (s.failed i .adapt 0#64)) ∧
  (∀ (i : Instr) (s t : State), s.err = .none → exec i s = .next t → t.err = .adapt →
    i.needsAdapter = true ∧ s.avalid = false) ∧
  State.reset.avalid = false ∧
  (∀ s t : State, step s = .next t → s.avalid = true → s.due ≠ .event .reset → t.avalid = true) ∧
  ∀ s t : State, step s = .next t → s.avalid = false → t.avalid = true → s.due = .command .ainit

/-- `E_ENGINE` (R302): a dispatched command whose selection is a SIMD body records `SEL`, which stays resolved; with `AESR` 0 in
`CAP_RESET` it cannot happen from a state that satisfies the invariant. -/
def Obligations.EngineError : Prop :=
  (∀ (i : Instr) (s : State), s.Accepts → i.dispatched = true → (i.needsAdapter = true → s.avalid = true) →
    s.resolved.present = false →
    exec i s = .next { s.failed i .engine ((selWord (some s.resolved)).setWidth 64) with sel := some s.resolved }) ∧
  (∀ (i : Instr) (s t : State), s.err = .none → exec i s = .next t → t.err = .engine →
    i.dispatched = true ∧ s.resolved.present = false) ∧
  ∀ (i : Instr) (s t : State), s.Inv → s.cfg.capReset.getLsbD 1 = false → s.err ≠ .engine → exec i s = .next t →
    t.err ≠ .engine

/-- `E_ALIGN` (R293): an aligned command whose `x[ADDR]` is no multiple of the word size of the body that runs, even for an
empty input, records `x[ADDR]` and changes nothing but `SEL`; with `A = 0`, and by `SUPD`, it never happens. -/
def Obligations.AlignError : Prop :=
  (∀ (i : Instr) (s : State) (W : Nat), s.Accepts → s.reads i = some (W, .aligned) →
    (i.needsAdapter = true → s.avalid = true) → (i.dispatched = true → s.resolved.present = true) →
    s.addr.toNat % W ≠ 0 →
    exec i s = .next { s.failed i .align s.addr with sel := s.selAfter i }) ∧
  ∀ (i : Instr) (s t : State), s.err = .none → exec i s = .next t → t.err = .align →
    ∃ W, s.reads i = some (W, .aligned) ∧ s.addr.toNat % W ≠ 0

/-- `E_RANGE` (R294): an input that passes the end of the address space, by the seven memory-reading commands, records
`x[ADDR]` and changes nothing but `SEL`; an input that ends at the last byte, or is empty, never does. -/
def Obligations.RangeError : Prop :=
  (∀ (i : Instr) (s : State) (W : Nat) (a : Discipline), s.Accepts → s.reads i = some (W, a) →
    (i.needsLive = true → s.stream.sstate = .live) → (i.needsAdapter = true → s.avalid = true) →
    (i.dispatched = true → s.resolved.present = true) → s.Aligned W a → 2 ^ 64 < s.addr.toNat + s.len.toNat →
    exec i s = .next { s.failed i .range s.addr with sel := s.selAfter i }) ∧
  ∀ (i : Instr) (s t : State), s.err = .none → exec i s = .next t → t.err = .range →
    s.len ≠ 0#64 ∧ 2 ^ 64 < s.addr.toNat + s.len.toNat

/-- `E_BUS` (R295, with the account of the reads in R83 to R85): a memory-reading command that passes its other checks fails
exactly when a page with an input byte is unmapped. The address recorded is that of the first unmapped input byte, except
where the whole input is shorter than a word, is read by one underside read and its first page is unmapped: then it is the
address that read starts at. It is unmapped and in the page of the first unmapped input byte in either case, and for `SUPD`,
which reads input bytes only, it is that byte. The result registers and `ASTATE` keep their values. -/
def Obligations.BusError : Prop :=
  ∀ (i : Instr) (s : State) (W : Nat) (a : Discipline), s.Accepts → s.violation i = none → s.reads i = some (W, a) →
    (∃ t : State, exec i s = .next t ∧ (t.err = .bus ↔ ¬ s.InputMapped) ∧ (t.done = true ↔ s.InputMapped)) ∧
    ∀ j < s.len.toNat, s.mem.mapped (s.inputAddr j) = false →
      (∀ k < j, s.mem.mapped (s.inputAddr k) = true) →
      ∃ (t : State) (x : Nat), exec i s = .next t ∧ t.err = .bus ∧ t.errInfo.toNat = x ∧ t.done = false ∧
        x = s.busAddress W a j ∧
        s.mem.mapped x = false ∧ x / pageSize = s.inputAddr j / pageSize ∧ x ≤ s.inputAddr j ∧
        (i = .supd → x = s.inputAddr j) ∧
        t.resLo = s.resLo ∧ t.resHi = s.resHi ∧ t.astate = s.astate ∧ t.sel = s.selAfter i

/-- A bus error in `SUPD` poisons the context (R296): `SSTATE` is `S_NONE`, `FILL` stays below 32, `TOTAL` is not advanced;
outside the context only what every error changes is changed, with `POS`. That the working bank and `REM` stay and what `POS` holds
is the model's choice (notes/assumptions/4.md). -/
def Obligations.BusErrorPoisons : Prop :=
  ∀ s : State, s.Accepts → s.stream.sstate = .live → s.InRange → ¬ s.InputMapped →
    ∃ (info : U64) (x : Stream),
      exec .supd s = .next { s.failed .supd .bus info with
        stream := x, work := { s.work with pos := s.addr, phase := .idle } } ∧
      x.sstate = .none ∧ x.fill.toNat ≤ 31 ∧ x.total = s.stream.total

/-- The priority of conditions (R299): a write to `CMD` has exactly one outcome, the first of the nine that applies, or it
completes. -/
def Obligations.PriorityOrder : Prop :=
  ∀ (s : State) (p : BitVec 70) (rest : List HostEvent) (v : U64),
    s.inbox = .port p :: rest → decodeTransaction p = .wr 0x00#5 v →
    ∃ t : State, step s = .next t ∧
      if s.halt = true then t = { s with inbox := rest, reply := none }
      else if 32 ≤ s.stream.fill.toNat then
        t.err = .fatal ∧ t.errInfo = s.stream.fill.setWidth 64 ∧ t.halt = true ∧ t.cmd = v.setWidth 32 ∧ t.done = false
      else if s.err ≠ .none ∧ decode v ≠ .ok .nop ∧ decode v ≠ .ok .clrerr then
        t = { s with inbox := rest, reply := none, cmd := v.setWidth 32, done := false }
      else
        t.cmd = v.setWidth 32 ∧
        match decode v with
        | .error _ => t.err = .illegal ∧ t.errInfo = v ∧ t.done = false
        | .ok i =>
          match s.violation i with
          | some (e, info) => t.err = e ∧ t.errInfo = info ∧ t.done = false ∧ t.sel = s.selAfter i
          | none => if (s.reads i).isSome = true ∧ ¬ s.InputMapped then t.err = .bus ∧ t.done = false else t.done = true

/-! ### Results of the commands -/

/-- `NOP` (R277): only what every command write does, even while an error is pending; ignored while halted. -/
def Obligations.NopResult : Prop :=
  (∀ s : State, s.halt = false → s.stream.fill.toNat < 32 →
    exec .nop s = .next (s.ended .nop { s.work with phase := .idle }) ∧ (s.ended .nop s.work).cmd = 0#32) ∧
  ∀ s : State, s.halt = true → exec .nop s = .next { s with inbox := s.inbox.tail, reply := none }

/-- `CLRERR` (R278): the error registers are cleared, whether an error was pending or not, and nothing else is; ignored while
halted. -/
def Obligations.ClrerrResult : Prop :=
  (∀ s : State, s.halt = false → s.stream.fill.toNat < 32 →
    exec .clrerr s =
      .next { s.ended .clrerr { s.work with phase := .idle } with err := .none, errInfo := 0#64 }) ∧
  ∀ s : State, s.halt = true → exec .clrerr s = .next { s with inbox := s.inbox.tail, reply := none }

/-- `HASH0` (R272, R273): the digest of the body the dispatcher selects, generation 2 or generation 1, and `SEL` resolved. -/
def Obligations.Hash0Result : Prop :=
  ∀ (e : Endian) (a : Discipline) (s : State), s.Accepts → s.resolved.present = true →
    s.Aligned s.resolved.wordSize a → s.InRange → s.InputMapped →
    ∃ w : Work, w.phase = .idle ∧
      exec (.hash0 e a) s = .next { s.ended (.hash0 e a) w with
        sel := some s.resolved, resLo := body0Spec s.cfg s.resolved e s.seedX s.input, resHi := 0#64 }

/-- `HASH1` (R176): the generation-1 digest of the input bytes. -/
def Obligations.Hash1Result : Prop :=
  ∀ (e : Endian) (a : Discipline) (s : State), s.Accepts → s.Aligned 4 a → s.InRange → s.InputMapped →
    ∃ w : Work, w.phase = .idle ∧
      exec (.hash1 e a) s = .next { s.ended (.hash1 e a) w with
        resLo := hash1Spec s.cfg e s.seedX s.input, resHi := 0#64 }

/-- `HASH2` (R195): the generation-2 digest of the input bytes. -/
def Obligations.Hash2Result : Prop :=
  ∀ (e : Endian) (a : Discipline) (s : State), s.Accepts → s.Aligned 8 a → s.InRange → s.InputMapped →
    ∃ w : Work, w.phase = .idle ∧
      exec (.hash2 e a) s = .next { s.ended (.hash2 e a) w with
        resLo := hash2Spec s.cfg e s.seedX s.input, resHi := 0#64 }

/-- `HASH3` (R216): the 64-bit generation-3 digest of the input bytes. -/
def Obligations.Hash3Result : Prop :=
  ∀ (a : Discipline) (s : State), s.Accepts → s.Aligned 8 a → s.InRange → s.InputMapped →
    ∃ w : Work, w.phase = .idle ∧
      exec (.hash3 a) s = .next { s.ended (.hash3 a) w with
        resLo := hash3Spec s.cfg s.seedX s.input, resHi := 0#64 }

/-- `HASH3X` (R217): the 128-bit generation-3 digest of the input bytes, high half in `RES_HI`. -/
def Obligations.Hash3xResult : Prop :=
  ∀ (a : Discipline) (s : State), s.Accepts → s.Aligned 8 a → s.InRange → s.InputMapped →
    ∃ w : Work, w.phase = .idle ∧
      exec (.hash3x a) s = .next { s.ended (.hash3x a) w with
        resLo := (hash3xSpec s.cfg s.seedX s.input).2, resHi := (hash3xSpec s.cfg s.seedX s.input).1 }

/-- `SINIT` (R241): the accumulators from the two seeds, counters at 0, the context live; the bytes of the buffer stay, and so
does all the rest. -/
def Obligations.SinitResult : Prop :=
  ∀ s : State, s.Accepts →
    ∃ t : State, exec .sinit s = .next t ∧
      t = { s.ended .sinit { s.work with phase := .idle } with
        stream := { s.stream with
          acc := { a := s.seedX, b := s.seedY, c := uRot64 s.seedY 23 + ~~~ s.seedX, d := ~~~ s.seedY + uRot64 s.seedX 19 }
          fill := 0#6, total := 0#64, sstate := .live } } ∧
      t.status.getLsbD 0 = true ∧ t.status.getLsbD 2 = true ∧ t.status.getLsbD 3 = false

/-- `SUPD` (R243, R242): the input goes behind the pending bytes; whole blocks go through the block step, the rest stays
pending; `TOTAL` grows by `x[LEN]`. The working accumulators and all the rest stay. What the scratch registers hold, `POS` among
them, is the model's choice (notes/assumptions/4.md). -/
def Obligations.SupdResult : Prop :=
  ∀ s : State, s.Accepts → s.stream.sstate = .live → s.InRange → s.InputMapped →
    ∃ x : Stream,
      exec .supd s = .next { s.ended .supd { s.work with pos := s.addr, phase := .idle } with stream := x } ∧
      x.sstate = .live ∧ x.total = s.stream.total + s.len ∧
      x.acc = (s.stream.fed s.cfg s.input).1 ∧ x.pending = (s.stream.fed s.cfg s.input).2 ∧
      x.fill.toNat = (s.stream.fill.toNat + s.len.toNat) % 32

/-- `SFIN` (R247): the marker goes behind the pending bytes, then squash, cascade over what is pending and finisher, on
copies; the context is done. -/
def Obligations.SfinResult : Prop :=
  ∀ s : State, s.Accepts → s.stream.sstate = .live →
    ∃ (x : Stream) (q : Quad),
      q = g3TailAB s.cfg (s.stream.marked s.cfg).2 (uG3Squash s.cfg (s.stream.marked s.cfg).1) ∧
      exec .sfin s = .next { s.ended .sfin { s.work with phase := .idle } with
        stream := x, resLo := uFin64 s.cfg q.a q.b, resHi := 0#64 } ∧
      x.sstate = .done ∧ x.total = s.stream.total ∧
      x.acc = (s.stream.marked s.cfg).1 ∧ x.pending = (s.stream.marked s.cfg).2 ∧
      x.fill.toNat = (s.stream.fill.toNat + 8) % 32

/-- `SFINX` (R248): as `SFIN` without the squash, over four accumulators, with a 128-bit digest. -/
def Obligations.SfinxResult : Prop :=
  ∀ s : State, s.Accepts → s.stream.sstate = .live →
    ∃ (x : Stream) (q : Quad),
      q = g3TailABCD s.cfg (s.stream.marked s.cfg).2 (s.stream.marked s.cfg).1 ∧
      exec .sfinx s = .next { s.ended .sfinx { s.work with phase := .idle } with
        stream := x, resLo := (uFin128 s.cfg q.a q.b q.c q.d).2, resHi := (uFin128 s.cfg q.a q.b q.c q.d).1 } ∧
      x.sstate = .done ∧ x.total = s.stream.total ∧
      x.acc = (s.stream.marked s.cfg).1 ∧ x.pending = (s.stream.marked s.cfg).2 ∧
      x.fill.toNat = (s.stream.fill.toNat + 8) % 32

/-- `AINIT` (R274): the state from `SEED_X`, `AVALID` set, nothing else; `SEL` is not resolved by it. -/
def Obligations.AinitResult : Prop :=
  ∀ s : State, s.Accepts →
    exec .ainit s = .next { s.ended .ainit { s.work with phase := .idle } with astate := s.seedX, avalid := true }

/-- `AWRITE` (R275): the state seeds the hash of the input by the body the dispatcher selects and is replaced by its digest;
`SEL` is resolved; the result registers stay. -/
def Obligations.AwriteResult : Prop :=
  ∀ (e : Endian) (a : Discipline) (s : State), s.Accepts → s.avalid = true → s.resolved.present = true →
    s.Aligned s.resolved.wordSize a → s.InRange → s.InputMapped →
    ∃ w : Work, w.phase = .idle ∧
      exec (.awrite e a) s = .next { s.ended (.awrite e a) w with
        sel := some s.resolved, astate := body0Spec s.cfg s.resolved e s.astate s.input }

/-- `AFIN` (R276): the state is the digest, and the adapter is not consumed. -/
def Obligations.AfinResult : Prop :=
  ∀ s : State, s.Accepts → s.avalid = true →
    exec .afin s = .next { s.ended .afin { s.work with phase := .idle } with resLo := s.astate, resHi := 0#64 }

/-! ### What commands depend on and what they leave alone -/

/-- A command depends on memory only through the bytes of its input and on the mapping only through the pages that hold an
input byte: two memories that agree there, and may differ everywhere else, give the same state but for the memory (R85, R86).
So bytes a tail read touches outside the input, stale or unmapped pages next to it, and all other data cannot show in any
register. That this holds of the scratch registers too, and of `SA..SD`, `BUF` and `FILL` after a bus error in `SUPD`, which
the spec leaves at any value, rests on the model's choice of what they hold (notes/assumptions/4.md). -/
def Obligations.DependsOnInputOnly : Prop :=
  ∀ (i : Instr) (s : State) (m : Memory),
    (∀ j < s.len.toNat, m.byte (s.inputAddr j) = s.mem.byte (s.inputAddr j) ∧
      m.mapped (s.inputAddr j) = s.mem.mapped (s.inputAddr j)) →
    ∃ (t : State) (m' : Memory), exec i s = .next t ∧ exec i { s with mem := m } = .next { t with mem := m' }

/-- The alignment discipline changes no result (R136, R80): where the aligned form is legal and the input mapped, the two
forms of a command leave the same state but for the word in `CMD`; and the two tail reads agree whenever both succeed. R136 and
R80 speak of words and digests; that the working bank, `POS` and `REM`, which the spec leaves at any value between commands,
agree too rests on the model's choice of what they hold (notes/assumptions/4.md). -/
def Obligations.DisciplineIndependent : Prop :=
  (∀ (i : Instr) (s : State) (W : Nat) (a : Discipline), s.reads i = some (W, a) → s.addr.toNat % W = 0 → s.InputMapped →
    ∃ t u : State, exec (i.withDiscipline .unaligned) s = .next t ∧ exec (i.withDiscipline .aligned) s = .next u ∧
      u = { t with cmd := u.cmd }) ∧
  ∀ (m : Memory) (W : Nat) (e : Endian) (pos r v u : Nat), W = 4 ∨ W = 8 → 1 ≤ r → r ≤ W →
    uTail m W e .unaligned pos r = .ok v → uTail m W e .aligned pos r = .ok u → v = u

/-- What no command changes, error or not (R35, R36, R37, R70, R91): the operand registers, `CAP`, the parameters, every byte
of memory and every page's mapping; the stream context outside the streaming commands, the working accumulators outside those
that hash in the working bank, the adapter outside its own commands, `SEL` outside the dispatched ones, and the result
registers unless a digest command completes. That the scratch registers keep their values where a command does not write them is
the model's choice (notes/assumptions/4.md). -/
def Obligations.CommandFrame : Prop :=
  ∀ (i : Instr) (s t : State), exec i s = .next t →
    t.inbox = s.inbox.tail ∧ t.reply = none ∧ t.seedX = s.seedX ∧ t.seedY = s.seedY ∧ t.addr = s.addr ∧ t.len = s.len ∧
    t.cap = s.cap ∧ t.cfg = s.cfg ∧
    (∀ a : Nat, t.mem.held a = s.mem.held a ∧ t.mem.mapped a = s.mem.mapped a) ∧
    t.mem.cells = s.mem.cells ∧ t.mem.unmapped = s.mem.unmapped ∧ t.mem.racing = s.mem.racing ∧
    (i.streaming = false → t.stream = s.stream) ∧
    (i.oneShot = false → i.dispatched = false → t.work.acc = s.work.acc ∧ t.work.rem = s.work.rem) ∧
    (i.adapter = false → t.astate = s.astate ∧ t.avalid = s.avalid) ∧
    (i.dispatched = false → t.sel = s.sel) ∧
    (i.producesDigest = false ∨ t.done = false → t.resLo = s.resLo ∧ t.resHi = s.resHi)

/-- `CAP` is constant and `SEL` is written at most once between resets, by the first `HASH0` or `AWRITE` that resolves, with
what `CAP` selects (R45, R46, R271). -/
def Obligations.ResolvedOnce : Prop :=
  ∀ s t : State, step s = .next t → s.due ≠ .event .reset →
    t.cap = s.cap ∧ (∀ x, s.sel = some x → t.sel = some x) ∧
    (s.sel = none → t.sel = none ∨
      (t.sel = some (resolveCap s.cap) ∧ ∃ i : Instr, s.due = .command i ∧ i.dispatched = true))

/-- What `CAP` selects (R271): the values of `SEL` for all sixteen values of the four capability bits; the reserved bits do not
matter. -/
def Obligations.DispatchTable : Prop :=
  ∀ c : BitVec 32,
    resolveCap c = resolveCap (capWord c) ∧
    (selWord (some (resolveCap c))).toNat =
      [8, 9, 10, 10, 8, 9, 11, 11, 8, 9, 12, 12, 8, 9, 12, 12].getD (c.toNat % 16) 0

/-- The lifecycle of the streaming hasher (R52): the only changes of `SSTATE` a command makes, and when. -/
def Obligations.StreamLifecycle : Prop :=
  ∀ (i : Instr) (s t : State), exec i s = .next t → t.stream.sstate ≠ s.stream.sstate →
    (i = .sinit ∧ t.stream.sstate = .live) ∨
    ((i = .sfin ∨ i = .sfinx) ∧ s.stream.sstate = .live ∧ t.stream.sstate = .done ∧ t.done = true) ∨
    (i = .supd ∧ s.stream.sstate = .live ∧ t.stream.sstate = .none ∧ t.err = .bus)

/-! ### The streaming hasher -/

/-- Chunk-boundary independence (R251, invariants I-BUF and I-TOTAL): after `SINIT` the context holds the empty string, and each
`SUPD` appends its input, so the context after any split of a byte string into chunks is the one R251 gives. -/
def Obligations.ChunkIndependent : Prop :=
  (∀ s : State, s.Accepts →
    ∃ t : State, exec .sinit s = .next t ∧ t.stream.Holds t.cfg s.seedX s.seedY []) ∧
  ∀ (s : State) (x y : U64) (M : List Byte), s.Accepts → s.stream.Holds s.cfg x y M → s.InRange → s.InputMapped →
    ∃ t : State, exec .supd s = .next t ∧ t.stream.Holds t.cfg x y (M ++ s.input)

/-- The digests of a context that holds a byte string are functions of the seeds and the string alone (R251, R247, R248). -/
def Obligations.StreamDigests : Prop :=
  ∀ (s : State) (x y : U64) (M : List Byte), s.Accepts → s.stream.Holds s.cfg x y M →
    (∃ t : State, exec .sfin s = .next t ∧ t.resLo = streamHash64 s.cfg x y M ∧ t.resHi = 0#64) ∧
    ∃ t : State, exec .sfinx s = .next t ∧ t.resLo = (streamHash128 s.cfg x y M).2 ∧
      t.resHi = (streamHash128 s.cfg x y M).1

/-- Every step keeps invariants I-BUF and I-TOTAL (R49, R50): from a state whose context holds the byte string `M` under the seeds
`x`, `y`, a step that leaves a live context leaves one that holds `M` still, or `M` with the input behind it after a `SUPD`, or
the empty string under new seeds after a `SINIT`. Nothing else the host does touches what the context holds. -/
def Obligations.StepKeepsStream : Prop :=
  ∀ (s t : State) (x y : U64) (M : List Byte), s.stream.Holds s.cfg x y M → step s = .next t → t.stream.sstate = .live →
    t.stream.Holds t.cfg x y M ∨
    (s.due = .command .supd ∧ t.stream.Holds t.cfg x y (M ++ s.input)) ∨
    (s.due = .command .sinit ∧ t.stream.Holds t.cfg s.seedX s.seedY [])

/-! ### Memory unit and mixing datapath -/

/-- The value of the tail read (R133) and its safety (R85): where the pages of the valid bytes are mapped it succeeds, and
the value is that of the valid bytes alone, in both byte orders and by all three strategies. -/
def Obligations.TailReadValue : Prop :=
  ∀ (m : Memory) (W : Nat) (e : Endian) (a : Discipline) (pos r : Nat), W = 4 ∨ W = 8 → 1 ≤ r → r ≤ W →
    (a = .aligned → pos % W = 0) → (∀ i < r, m.mapped (pos + i) = true) →
    uTail m W e a pos r = .ok (wordValue e (m.bytes pos r))

/-- The tail read of the carry buffer (R139): the value of the `r` bytes, below `256^r`; stale bytes never reach it. -/
def Obligations.BufferTail : Prop :=
  ∀ (buf : Vector Byte bufSize) (i r : Nat), i ∈ [0, 8, 16, 24] → 1 ≤ r → r ≤ 8 →
    (uBufTail buf i r).toNat = leValue (bufRead buf i r) ∧ (uBufTail buf i r).toNat < 256 ^ r ∧
    (uBufFetch buf i).toNat = leValue (bufRead buf i 8)

/-- Rotation (R151, R152): bit `i` of the result is bit `(i + n) mod N` of the operand, for every amount, 0 included. -/
def Obligations.RotateBits : Prop :=
  (∀ (v : U64) (n i : Nat), n < 64 → i < 64 → (uRot64 v n).getLsbD i = v.getLsbD ((i + n) % 64)) ∧
  ∀ (v : U32) (n i : Nat), n < 32 → i < 32 → (uRot32 v n).getLsbD i = v.getLsbD ((i + n) % 32)

/-- `uWXOR64` (R154): the xor of the two halves of the exact product; 0 and all ones (for any prime but 0) are fixed points, 1
gives the prime. -/
def Obligations.WidenXor : Prop :=
  (∀ v p : U64, (uWxor64 v p).toNat = (v.toNat * p.toNat % 2 ^ 64) ^^^ (v.toNat * p.toNat / 2 ^ 64)) ∧
  (∀ p : U64, uWxor64 0#64 p = 0#64 ∧ uWxor64 1#64 p = p) ∧
  (∀ p : U64, p ≠ 0#64 → uWxor64 0xFFFFFFFFFFFFFFFF#64 p = 0xFFFFFFFFFFFFFFFF#64) ∧
  uWxor64 1#64 Config.default.p4 = 0x9C06FAF4D023E3AB#64 ∧
  uWxor64 0x0000000100000000#64 Config.default.p1 = 0x0EDCEF3982434FE9#64 ∧
  uWxor64 0x0123456789ABCDEF#64 Config.default.p1 = 0x123437D0BE7EB559#64

/-- `uPUPD64` (R155): the sum wraps before the exact product; the low half goes into the first accumulator by xor, the high
half into the second, as it was, by a wrapping sum; a sum of 0 changes neither; the high half is below the prime. -/
def Obligations.PairUpdate : Prop :=
  (∀ a b w p : U64,
    (uPupd64 a b w p).1.toNat = a.toNat ^^^ ((b.toNat + w.toNat) % 2 ^ 64 * p.toNat % 2 ^ 64) ∧
    (uPupd64 a b w p).2.toNat = (b.toNat + (b.toNat + w.toNat) % 2 ^ 64 * p.toNat / 2 ^ 64) % 2 ^ 64 ∧
    (b + w = 0#64 → uPupd64 a b w p = (a, b)) ∧
    (b.toNat + w.toNat) % 2 ^ 64 * p.toNat / 2 ^ 64 ≤ p.toNat - 1) ∧
  uPupd64 0#64 0#64 1#64 Config.default.p1 = (0x82434FE90EDCEF39#64, 0#64) ∧
  uPupd64 1#64 2#64 3#64 Config.default.p4 = (0x0C22E6C810B37256#64, 5#64) ∧
  uPupd64 0x1111111111111111#64 0xFFFFFFFFFFFFFFF0#64 0x20#64 Config.default.p3 =
    (0xC8DBDD33D7F84601#64, 0xFFFFFFFFFFFFFFFB#64)

/-- The worked examples of the finishers and of the 32-bit pair update (R156 to R160), with the default primes. -/
def Obligations.FinisherExamples : Prop :=
  uPupd32 1#32 2#32 3#32 Config.default.q4 = (0xA2B4F2E4#32, 0x00000004#32) ∧
  uMix64 1#64 Config.default.p0 = 0x6A580668D6848674#64 ∧
  uFinW Config.default 0xFFFFFFFFFFFFFFFF#64 0#64 = 0x6A580668D6048674#64 ∧
  uFinW Config.default 1#64 2#64 = 0x27087B230329BED4#64 ∧
  uFin64 Config.default 1#64 2#64 = 0x8CFEFAE61B5744A1#64 ∧
  uFin64 Config.default 0xFFFFFFFFFFFFFFFF#64 0#64 = 0x772C7311BE32FF42#64 ∧
  uFin128 Config.default 1#64 2#64 3#64 4#64 = (0x9CC22C346A18BB24#64, 0xC598CD9A7BA0D48A#64) ∧
  uFin32 Config.default 1#32 2#32 = 0x4F1DE8CBBC62C94A#64 ∧
  uFin32 Config.default 0xFFFFFFFF#32 0xFFFFFFFF#32 = 0xC92229C10FAEA50E#64

/-- The worked examples of the block steps and folds (R172, R174, R191, R197, R211, R213), with the default primes. -/
def Obligations.BlockStepExamples : Prop :=
  g1Mix Config.default 0x03020100#32 0x07060504#32 0x0B0A0908#32 0x0F0E0D0C#32
      ⟨0x89B5CDEF#64, 0x01234573#64, 0x764A3210#64, 0x98091A2B#64⟩ =
    ⟨0xF6407E5F#64, 0x305D7B6F#64, 0x985A6084#64, 0x699FE3F6#64⟩ ∧
  uG1Fold Config.default ⟨0xF6407E5F#64, 0x305D7B6F#64, 0x985A6084#64, 0x699FE3F6#64⟩ =
    ⟨0x1317EED4#64, 0x986AB8CF#64, 0x8E9ADEE3#64, 0x99FD5F65#64⟩ ∧
  g2Mix Config.default 0x0706050403020100#64 0x0F0E0D0C0B0A0908#64 0x1716151413121110#64 0x1F1E1D1C1B1A1918#64
      ⟨0x0123456789ABCDEF#64, 0x28#64, 0x0137456789ABCDEF#64, 0xE6F78091A2B3C4FD#64⟩ =
    ⟨0xFD50EB150C763C45#64, 0x0C5EFF5B06A93956#64, 0x845A09CE93541CDC#64, 0xD0E36E818497AACD#64⟩ ∧
  (uG2Fold Config.default
      ⟨0xFD50EB150C763C45#64, 0x0C5EFF5B06A93956#64, 0x845A09CE93541CDC#64, 0xD0E36E818497AACD#64⟩) =
    ⟨0x53EAD7C675E48282#64, 0x5B258E3FE1C713D5#64, 0x845A09CE93541CDC#64, 0xD0E36E818497AACD#64⟩ ∧
  uG3Blk Config.default ⟨0x0123456789ABCDEF#64, 0x28#64, 0xFEDD0A9876543210#64, 0x79BDE02468ACF10C#64⟩
      0x0706050403020100#64 0x0F0E0D0C0B0A0908#64 0x1716151413121110#64 0x1F1E1D1C1B1A1918#64 =
    ⟨0x72FBE2831F0DFEA7#64, 0x2EB415A23723551D#64, 0x7AF8CDF17CF87FE2#64, 0x4991C8004890C950#64⟩ ∧
  uG3Squash Config.default
      ⟨0x72FBE2831F0DFEA7#64, 0x2EB415A23723551D#64, 0x7AF8CDF17CF87FE2#64, 0x4991C8004890C950#64⟩ =
    ⟨0x8C5DF254AAC624A4#64, 0x8450D030840CA076#64, 0x7AF8CDF17CF87FE2#64, 0x4991C8004890C950#64⟩

/-! ### Memory and invariant -/

/-- Equal memories are equal data: two canonical memories that hold the same byte at every address of the address space list
the same cells. That memory is a list of cells, and what an unlisted address reads as, is the model's choice
(notes/assumptions/2.md). -/
def Obligations.CanonicalMemory : Prop :=
  ∀ m m' : Memory, m.wf → m'.wf → (∀ a < 2 ^ 64, m.held a = m'.held a) → m.cells = m'.cells

/-- What the host and the platform do to memory (R22, R73, R88, R89), each by one event that changes nothing else, no register
among them. A store: the byte is what memory then holds there, every other byte stays. Mapping or unmapping a page: only
whether that page is mapped. Other agents starting or ceasing to write pages: exactly those pages are racing from then on, and
what memory holds and what is mapped stays. In every memory, a command reads from a racing page the free value of
`Config.racedByte`, about which nothing is known, and from every other page the byte memory holds. How racing pages and their
draws are kept is the model's choice (notes/assumptions/5.md). -/
def Obligations.HostMemory : Prop :=
  (∀ (s : State) (rest : List HostEvent) (x : U64) (b : Byte), s.inbox = .store x b :: rest →
    ∃ m : Memory, step s = .next { s with inbox := rest, reply := none, mem := m } ∧
      m.held x.toNat = b ∧ (∀ a, a ≠ x.toNat → m.held a = s.mem.held a) ∧ m.unmapped = s.mem.unmapped ∧
      m.racing = s.mem.racing ∧ m.draw = s.mem.draw) ∧
  (∀ (s : State) (rest : List HostEvent) (p : BitVec 52), s.inbox = .mapPage p :: rest →
    ∃ m : Memory, step s = .next { s with inbox := rest, reply := none, mem := m } ∧ m.cells = s.mem.cells ∧
      m.racing = s.mem.racing ∧ m.draw = s.mem.draw ∧
      ∀ a, m.mapped a = (decide (a / pageSize = p.toNat) || s.mem.mapped a)) ∧
  (∀ (s : State) (rest : List HostEvent) (p : BitVec 52), s.inbox = .unmapPage p :: rest →
    ∃ m : Memory, step s = .next { s with inbox := rest, reply := none, mem := m } ∧ m.cells = s.mem.cells ∧
      m.racing = s.mem.racing ∧ m.draw = s.mem.draw ∧
      ∀ a, m.mapped a = (decide (a / pageSize ≠ p.toNat) && s.mem.mapped a)) ∧
  (∀ (s : State) (rest : List HostEvent) (ps : List (BitVec 52)), s.inbox = .race ps :: rest →
    ∃ m : Memory, step s = .next { s with inbox := rest, reply := none, mem := m } ∧ m.cells = s.mem.cells ∧
      m.unmapped = s.mem.unmapped ∧ (∀ q : Nat, q ∈ m.racing ↔ ∃ p ∈ ps, p.toNat = q) ∧ m.draw ≠ s.mem.draw) ∧
  ∀ (m : Memory) (a : Nat),
    (a / pageSize ∈ m.racing → m.byte a = Config.racedByte m.draw a) ∧
    (a / pageSize ∉ m.racing → m.byte a = m.held a)

/-- The state right after reset satisfies the invariant. That `REM` is at most 32 there is the model's choice of a value the spec
leaves unspecified (notes/assumptions/1.md). -/
def Obligations.ResetSatisfiesInv : Prop := State.reset.Inv

/-- Every step keeps the invariant, whatever the host does (R48, R49, R38, R45, R271, R290, R298): the memory stays canonical,
`FILL` stays below 32 and equal to `TOTAL` modulo 32 on a live context, `PHASE` is `IDLE` between commands, the core does not
halt, `CAP` and `SEL` stay what they are. That memory has a canonical form is the model's choice (notes/assumptions/2.md). `REM` is
scratch that the spec leaves at any value after reset and between commands: that it stays at most 32 rests on the values the
model chose for reset (notes/assumptions/1.md) and for what a command leaves (notes/assumptions/4.md). -/
def Obligations.StepKeepsInv : Prop := ∀ s t : State, s.Inv → step s = .next t → t.Inv
end

