-- ==== Sys2Proof/Laws/State.lean ====
section
/-! SUPPORT. One lemma per field and update of the state, so that no proof unfolds a record update. -/

namespace Sys2Proof.Machine

open Sys2Proof

/-! ### `State.retire` -/

@[simp] theorem State.retire_seedX (s : State) : s.retire.seedX = s.seedX := rfl
@[simp] theorem State.retire_seedY (s : State) : s.retire.seedY = s.seedY := rfl
@[simp] theorem State.retire_addr (s : State) : s.retire.addr = s.addr := rfl
@[simp] theorem State.retire_len (s : State) : s.retire.len = s.len := rfl
@[simp] theorem State.retire_resLo (s : State) : s.retire.resLo = s.resLo := rfl
@[simp] theorem State.retire_resHi (s : State) : s.retire.resHi = s.resHi := rfl
@[simp] theorem State.retire_cmd (s : State) : s.retire.cmd = s.cmd := rfl
@[simp] theorem State.retire_done (s : State) : s.retire.done = s.done := rfl
@[simp] theorem State.retire_halt (s : State) : s.retire.halt = s.halt := rfl
@[simp] theorem State.retire_err (s : State) : s.retire.err = s.err := rfl
@[simp] theorem State.retire_errInfo (s : State) : s.retire.errInfo = s.errInfo := rfl
@[simp] theorem State.retire_cap (s : State) : s.retire.cap = s.cap := rfl
@[simp] theorem State.retire_sel (s : State) : s.retire.sel = s.sel := rfl
@[simp] theorem State.retire_work (s : State) : s.retire.work = s.work := rfl
@[simp] theorem State.retire_stream (s : State) : s.retire.stream = s.stream := rfl
@[simp] theorem State.retire_astate (s : State) : s.retire.astate = s.astate := rfl
@[simp] theorem State.retire_avalid (s : State) : s.retire.avalid = s.avalid := rfl
@[simp] theorem State.retire_mem (s : State) : s.retire.mem = s.mem := rfl
@[simp] theorem State.retire_cfg (s : State) : s.retire.cfg = s.cfg := rfl
@[simp] theorem State.retire_inbox (s : State) : s.retire.inbox = s.inbox.tail := rfl
@[simp] theorem State.retire_reply (s : State) : s.retire.reply = none := rfl

/-! ### `State.startCommand` -/

@[simp] theorem State.startCommand_seedX (s : State) (w : BitVec 32) : (s.startCommand w).seedX = s.seedX := rfl
@[simp] theorem State.startCommand_seedY (s : State) (w : BitVec 32) : (s.startCommand w).seedY = s.seedY := rfl
@[simp] theorem State.startCommand_addr (s : State) (w : BitVec 32) : (s.startCommand w).addr = s.addr := rfl
@[simp] theorem State.startCommand_len (s : State) (w : BitVec 32) : (s.startCommand w).len = s.len := rfl
@[simp] theorem State.startCommand_resLo (s : State) (w : BitVec 32) : (s.startCommand w).resLo = s.resLo := rfl
@[simp] theorem State.startCommand_resHi (s : State) (w : BitVec 32) : (s.startCommand w).resHi = s.resHi := rfl
@[simp] theorem State.startCommand_cmd (s : State) (w : BitVec 32) : (s.startCommand w).cmd = w := rfl
@[simp] theorem State.startCommand_done (s : State) (w : BitVec 32) : (s.startCommand w).done = false := rfl
@[simp] theorem State.startCommand_halt (s : State) (w : BitVec 32) : (s.startCommand w).halt = s.halt := rfl
@[simp] theorem State.startCommand_err (s : State) (w : BitVec 32) : (s.startCommand w).err = s.err := rfl
@[simp] theorem State.startCommand_errInfo (s : State) (w : BitVec 32) : (s.startCommand w).errInfo = s.errInfo := rfl
@[simp] theorem State.startCommand_cap (s : State) (w : BitVec 32) : (s.startCommand w).cap = s.cap := rfl
@[simp] theorem State.startCommand_sel (s : State) (w : BitVec 32) : (s.startCommand w).sel = s.sel := rfl
@[simp] theorem State.startCommand_work (s : State) (w : BitVec 32) : (s.startCommand w).work = s.work := rfl
@[simp] theorem State.startCommand_stream (s : State) (w : BitVec 32) : (s.startCommand w).stream = s.stream := rfl
@[simp] theorem State.startCommand_astate (s : State) (w : BitVec 32) : (s.startCommand w).astate = s.astate := rfl
@[simp] theorem State.startCommand_avalid (s : State) (w : BitVec 32) : (s.startCommand w).avalid = s.avalid := rfl
@[simp] theorem State.startCommand_mem (s : State) (w : BitVec 32) : (s.startCommand w).mem = s.mem := rfl
@[simp] theorem State.startCommand_cfg (s : State) (w : BitVec 32) : (s.startCommand w).cfg = s.cfg := rfl
@[simp] theorem State.startCommand_inbox (s : State) (w : BitVec 32) : (s.startCommand w).inbox = s.inbox := rfl
@[simp] theorem State.startCommand_reply (s : State) (w : BitVec 32) : (s.startCommand w).reply = s.reply := rfl

/-! ### `State.complete` -/

@[simp] theorem State.complete_seedX (s : State) : s.complete.seedX = s.seedX := rfl
@[simp] theorem State.complete_seedY (s : State) : s.complete.seedY = s.seedY := rfl
@[simp] theorem State.complete_addr (s : State) : s.complete.addr = s.addr := rfl
@[simp] theorem State.complete_len (s : State) : s.complete.len = s.len := rfl
@[simp] theorem State.complete_resLo (s : State) : s.complete.resLo = s.resLo := rfl
@[simp] theorem State.complete_resHi (s : State) : s.complete.resHi = s.resHi := rfl
@[simp] theorem State.complete_cmd (s : State) : s.complete.cmd = s.cmd := rfl
@[simp] theorem State.complete_done (s : State) : s.complete.done = true := rfl
@[simp] theorem State.complete_halt (s : State) : s.complete.halt = s.halt := rfl
@[simp] theorem State.complete_err (s : State) : s.complete.err = s.err := rfl
@[simp] theorem State.complete_errInfo (s : State) : s.complete.errInfo = s.errInfo := rfl
@[simp] theorem State.complete_cap (s : State) : s.complete.cap = s.cap := rfl
@[simp] theorem State.complete_sel (s : State) : s.complete.sel = s.sel := rfl
@[simp] theorem State.complete_work (s : State) : s.complete.work = { s.work with phase := .idle } := rfl
@[simp] theorem State.complete_stream (s : State) : s.complete.stream = s.stream := rfl
@[simp] theorem State.complete_astate (s : State) : s.complete.astate = s.astate := rfl
@[simp] theorem State.complete_avalid (s : State) : s.complete.avalid = s.avalid := rfl
@[simp] theorem State.complete_mem (s : State) : s.complete.mem = s.mem := rfl
@[simp] theorem State.complete_cfg (s : State) : s.complete.cfg = s.cfg := rfl
@[simp] theorem State.complete_inbox (s : State) : s.complete.inbox = s.inbox := rfl
@[simp] theorem State.complete_reply (s : State) : s.complete.reply = s.reply := rfl

/-! ### `State.withWork` -/

@[simp] theorem State.withWork_seedX (s : State) (w : Work) : (s.withWork w).seedX = s.seedX := rfl
@[simp] theorem State.withWork_seedY (s : State) (w : Work) : (s.withWork w).seedY = s.seedY := rfl
@[simp] theorem State.withWork_addr (s : State) (w : Work) : (s.withWork w).addr = s.addr := rfl
@[simp] theorem State.withWork_len (s : State) (w : Work) : (s.withWork w).len = s.len := rfl
@[simp] theorem State.withWork_resLo (s : State) (w : Work) : (s.withWork w).resLo = s.resLo := rfl
@[simp] theorem State.withWork_resHi (s : State) (w : Work) : (s.withWork w).resHi = s.resHi := rfl
@[simp] theorem State.withWork_cmd (s : State) (w : Work) : (s.withWork w).cmd = s.cmd := rfl
@[simp] theorem State.withWork_done (s : State) (w : Work) : (s.withWork w).done = s.done := rfl
@[simp] theorem State.withWork_halt (s : State) (w : Work) : (s.withWork w).halt = s.halt := rfl
@[simp] theorem State.withWork_err (s : State) (w : Work) : (s.withWork w).err = s.err := rfl
@[simp] theorem State.withWork_errInfo (s : State) (w : Work) : (s.withWork w).errInfo = s.errInfo := rfl
@[simp] theorem State.withWork_cap (s : State) (w : Work) : (s.withWork w).cap = s.cap := rfl
@[simp] theorem State.withWork_sel (s : State) (w : Work) : (s.withWork w).sel = s.sel := rfl
@[simp] theorem State.withWork_work (s : State) (w : Work) : (s.withWork w).work = w := rfl
@[simp] theorem State.withWork_stream (s : State) (w : Work) : (s.withWork w).stream = s.stream := rfl
@[simp] theorem State.withWork_astate (s : State) (w : Work) : (s.withWork w).astate = s.astate := rfl
@[simp] theorem State.withWork_avalid (s : State) (w : Work) : (s.withWork w).avalid = s.avalid := rfl
@[simp] theorem State.withWork_mem (s : State) (w : Work) : (s.withWork w).mem = s.mem := rfl
@[simp] theorem State.withWork_cfg (s : State) (w : Work) : (s.withWork w).cfg = s.cfg := rfl
@[simp] theorem State.withWork_inbox (s : State) (w : Work) : (s.withWork w).inbox = s.inbox := rfl
@[simp] theorem State.withWork_reply (s : State) (w : Work) : (s.withWork w).reply = s.reply := rfl

/-! ### `State.withResult` -/

@[simp] theorem State.withResult_seedX (s : State) (hi lo : U64) : (s.withResult hi lo).seedX = s.seedX := rfl
@[simp] theorem State.withResult_seedY (s : State) (hi lo : U64) : (s.withResult hi lo).seedY = s.seedY := rfl
@[simp] theorem State.withResult_addr (s : State) (hi lo : U64) : (s.withResult hi lo).addr = s.addr := rfl
@[simp] theorem State.withResult_len (s : State) (hi lo : U64) : (s.withResult hi lo).len = s.len := rfl
@[simp] theorem State.withResult_resLo (s : State) (hi lo : U64) : (s.withResult hi lo).resLo = lo := rfl
@[simp] theorem State.withResult_resHi (s : State) (hi lo : U64) : (s.withResult hi lo).resHi = hi := rfl
@[simp] theorem State.withResult_cmd (s : State) (hi lo : U64) : (s.withResult hi lo).cmd = s.cmd := rfl
@[simp] theorem State.withResult_done (s : State) (hi lo : U64) : (s.withResult hi lo).done = s.done := rfl
@[simp] theorem State.withResult_halt (s : State) (hi lo : U64) : (s.withResult hi lo).halt = s.halt := rfl
@[simp] theorem State.withResult_err (s : State) (hi lo : U64) : (s.withResult hi lo).err = s.err := rfl
@[simp] theorem State.withResult_errInfo (s : State) (hi lo : U64) : (s.withResult hi lo).errInfo = s.errInfo := rfl
@[simp] theorem State.withResult_cap (s : State) (hi lo : U64) : (s.withResult hi lo).cap = s.cap := rfl
@[simp] theorem State.withResult_sel (s : State) (hi lo : U64) : (s.withResult hi lo).sel = s.sel := rfl
@[simp] theorem State.withResult_work (s : State) (hi lo : U64) : (s.withResult hi lo).work = s.work := rfl
@[simp] theorem State.withResult_stream (s : State) (hi lo : U64) : (s.withResult hi lo).stream = s.stream := rfl
@[simp] theorem State.withResult_astate (s : State) (hi lo : U64) : (s.withResult hi lo).astate = s.astate := rfl
@[simp] theorem State.withResult_avalid (s : State) (hi lo : U64) : (s.withResult hi lo).avalid = s.avalid := rfl
@[simp] theorem State.withResult_mem (s : State) (hi lo : U64) : (s.withResult hi lo).mem = s.mem := rfl
@[simp] theorem State.withResult_cfg (s : State) (hi lo : U64) : (s.withResult hi lo).cfg = s.cfg := rfl
@[simp] theorem State.withResult_inbox (s : State) (hi lo : U64) : (s.withResult hi lo).inbox = s.inbox := rfl
@[simp] theorem State.withResult_reply (s : State) (hi lo : U64) : (s.withResult hi lo).reply = s.reply := rfl

/-! ### `State.withStream` -/

@[simp] theorem State.withStream_seedX (s : State) (x : Stream) : (s.withStream x).seedX = s.seedX := rfl
@[simp] theorem State.withStream_seedY (s : State) (x : Stream) : (s.withStream x).seedY = s.seedY := rfl
@[simp] theorem State.withStream_addr (s : State) (x : Stream) : (s.withStream x).addr = s.addr := rfl
@[simp] theorem State.withStream_len (s : State) (x : Stream) : (s.withStream x).len = s.len := rfl
@[simp] theorem State.withStream_resLo (s : State) (x : Stream) : (s.withStream x).resLo = s.resLo := rfl
@[simp] theorem State.withStream_resHi (s : State) (x : Stream) : (s.withStream x).resHi = s.resHi := rfl
@[simp] theorem State.withStream_cmd (s : State) (x : Stream) : (s.withStream x).cmd = s.cmd := rfl
@[simp] theorem State.withStream_done (s : State) (x : Stream) : (s.withStream x).done = s.done := rfl
@[simp] theorem State.withStream_halt (s : State) (x : Stream) : (s.withStream x).halt = s.halt := rfl
@[simp] theorem State.withStream_err (s : State) (x : Stream) : (s.withStream x).err = s.err := rfl
@[simp] theorem State.withStream_errInfo (s : State) (x : Stream) : (s.withStream x).errInfo = s.errInfo := rfl
@[simp] theorem State.withStream_cap (s : State) (x : Stream) : (s.withStream x).cap = s.cap := rfl
@[simp] theorem State.withStream_sel (s : State) (x : Stream) : (s.withStream x).sel = s.sel := rfl
@[simp] theorem State.withStream_work (s : State) (x : Stream) : (s.withStream x).work = s.work := rfl
@[simp] theorem State.withStream_stream (s : State) (x : Stream) : (s.withStream x).stream = x := rfl
@[simp] theorem State.withStream_astate (s : State) (x : Stream) : (s.withStream x).astate = s.astate := rfl
@[simp] theorem State.withStream_avalid (s : State) (x : Stream) : (s.withStream x).avalid = s.avalid := rfl
@[simp] theorem State.withStream_mem (s : State) (x : Stream) : (s.withStream x).mem = s.mem := rfl
@[simp] theorem State.withStream_cfg (s : State) (x : Stream) : (s.withStream x).cfg = s.cfg := rfl
@[simp] theorem State.withStream_inbox (s : State) (x : Stream) : (s.withStream x).inbox = s.inbox := rfl
@[simp] theorem State.withStream_reply (s : State) (x : Stream) : (s.withStream x).reply = s.reply := rfl

/-! ### `State.withSel` -/

@[simp] theorem State.withSel_seedX (s : State) (i : Impl) : (s.withSel i).seedX = s.seedX := rfl
@[simp] theorem State.withSel_seedY (s : State) (i : Impl) : (s.withSel i).seedY = s.seedY := rfl
@[simp] theorem State.withSel_addr (s : State) (i : Impl) : (s.withSel i).addr = s.addr := rfl
@[simp] theorem State.withSel_len (s : State) (i : Impl) : (s.withSel i).len = s.len := rfl
@[simp] theorem State.withSel_resLo (s : State) (i : Impl) : (s.withSel i).resLo = s.resLo := rfl
@[simp] theorem State.withSel_resHi (s : State) (i : Impl) : (s.withSel i).resHi = s.resHi := rfl
@[simp] theorem State.withSel_cmd (s : State) (i : Impl) : (s.withSel i).cmd = s.cmd := rfl
@[simp] theorem State.withSel_done (s : State) (i : Impl) : (s.withSel i).done = s.done := rfl
@[simp] theorem State.withSel_halt (s : State) (i : Impl) : (s.withSel i).halt = s.halt := rfl
@[simp] theorem State.withSel_err (s : State) (i : Impl) : (s.withSel i).err = s.err := rfl
@[simp] theorem State.withSel_errInfo (s : State) (i : Impl) : (s.withSel i).errInfo = s.errInfo := rfl
@[simp] theorem State.withSel_cap (s : State) (i : Impl) : (s.withSel i).cap = s.cap := rfl
@[simp] theorem State.withSel_sel (s : State) (i : Impl) : (s.withSel i).sel = some i := rfl
@[simp] theorem State.withSel_work (s : State) (i : Impl) : (s.withSel i).work = s.work := rfl
@[simp] theorem State.withSel_stream (s : State) (i : Impl) : (s.withSel i).stream = s.stream := rfl
@[simp] theorem State.withSel_astate (s : State) (i : Impl) : (s.withSel i).astate = s.astate := rfl
@[simp] theorem State.withSel_avalid (s : State) (i : Impl) : (s.withSel i).avalid = s.avalid := rfl
@[simp] theorem State.withSel_mem (s : State) (i : Impl) : (s.withSel i).mem = s.mem := rfl
@[simp] theorem State.withSel_cfg (s : State) (i : Impl) : (s.withSel i).cfg = s.cfg := rfl
@[simp] theorem State.withSel_inbox (s : State) (i : Impl) : (s.withSel i).inbox = s.inbox := rfl
@[simp] theorem State.withSel_reply (s : State) (i : Impl) : (s.withSel i).reply = s.reply := rfl

/-! ### `State.withAstate` -/

@[simp] theorem State.withAstate_seedX (s : State) (v : U64) : (s.withAstate v).seedX = s.seedX := rfl
@[simp] theorem State.withAstate_seedY (s : State) (v : U64) : (s.withAstate v).seedY = s.seedY := rfl
@[simp] theorem State.withAstate_addr (s : State) (v : U64) : (s.withAstate v).addr = s.addr := rfl
@[simp] theorem State.withAstate_len (s : State) (v : U64) : (s.withAstate v).len = s.len := rfl
@[simp] theorem State.withAstate_resLo (s : State) (v : U64) : (s.withAstate v).resLo = s.resLo := rfl
@[simp] theorem State.withAstate_resHi (s : State) (v : U64) : (s.withAstate v).resHi = s.resHi := rfl
@[simp] theorem State.withAstate_cmd (s : State) (v : U64) : (s.withAstate v).cmd = s.cmd := rfl
@[simp] theorem State.withAstate_done (s : State) (v : U64) : (s.withAstate v).done = s.done := rfl
@[simp] theorem State.withAstate_halt (s : State) (v : U64) : (s.withAstate v).halt = s.halt := rfl
@[simp] theorem State.withAstate_err (s : State) (v : U64) : (s.withAstate v).err = s.err := rfl
@[simp] theorem State.withAstate_errInfo (s : State) (v : U64) : (s.withAstate v).errInfo = s.errInfo := rfl
@[simp] theorem State.withAstate_cap (s : State) (v : U64) : (s.withAstate v).cap = s.cap := rfl
@[simp] theorem State.withAstate_sel (s : State) (v : U64) : (s.withAstate v).sel = s.sel := rfl
@[simp] theorem State.withAstate_work (s : State) (v : U64) : (s.withAstate v).work = s.work := rfl
@[simp] theorem State.withAstate_stream (s : State) (v : U64) : (s.withAstate v).stream = s.stream := rfl
@[simp] theorem State.withAstate_astate (s : State) (v : U64) : (s.withAstate v).astate = v := rfl
@[simp] theorem State.withAstate_avalid (s : State) (v : U64) : (s.withAstate v).avalid = s.avalid := rfl
@[simp] theorem State.withAstate_mem (s : State) (v : U64) : (s.withAstate v).mem = s.mem := rfl
@[simp] theorem State.withAstate_cfg (s : State) (v : U64) : (s.withAstate v).cfg = s.cfg := rfl
@[simp] theorem State.withAstate_inbox (s : State) (v : U64) : (s.withAstate v).inbox = s.inbox := rfl
@[simp] theorem State.withAstate_reply (s : State) (v : U64) : (s.withAstate v).reply = s.reply := rfl

/-! ### `State.withAdapter` -/

@[simp] theorem State.withAdapter_seedX (s : State) (v : U64) : (s.withAdapter v).seedX = s.seedX := rfl
@[simp] theorem State.withAdapter_seedY (s : State) (v : U64) : (s.withAdapter v).seedY = s.seedY := rfl
@[simp] theorem State.withAdapter_addr (s : State) (v : U64) : (s.withAdapter v).addr = s.addr := rfl
@[simp] theorem State.withAdapter_len (s : State) (v : U64) : (s.withAdapter v).len = s.len := rfl
@[simp] theorem State.withAdapter_resLo (s : State) (v : U64) : (s.withAdapter v).resLo = s.resLo := rfl
@[simp] theorem State.withAdapter_resHi (s : State) (v : U64) : (s.withAdapter v).resHi = s.resHi := rfl
@[simp] theorem State.withAdapter_cmd (s : State) (v : U64) : (s.withAdapter v).cmd = s.cmd := rfl
@[simp] theorem State.withAdapter_done (s : State) (v : U64) : (s.withAdapter v).done = s.done := rfl
@[simp] theorem State.withAdapter_halt (s : State) (v : U64) : (s.withAdapter v).halt = s.halt := rfl
@[simp] theorem State.withAdapter_err (s : State) (v : U64) : (s.withAdapter v).err = s.err := rfl
@[simp] theorem State.withAdapter_errInfo (s : State) (v : U64) : (s.withAdapter v).errInfo = s.errInfo := rfl
@[simp] theorem State.withAdapter_cap (s : State) (v : U64) : (s.withAdapter v).cap = s.cap := rfl
@[simp] theorem State.withAdapter_sel (s : State) (v : U64) : (s.withAdapter v).sel = s.sel := rfl
@[simp] theorem State.withAdapter_work (s : State) (v : U64) : (s.withAdapter v).work = s.work := rfl
@[simp] theorem State.withAdapter_stream (s : State) (v : U64) : (s.withAdapter v).stream = s.stream := rfl
@[simp] theorem State.withAdapter_astate (s : State) (v : U64) : (s.withAdapter v).astate = v := rfl
@[simp] theorem State.withAdapter_avalid (s : State) (v : U64) : (s.withAdapter v).avalid = true := rfl
@[simp] theorem State.withAdapter_mem (s : State) (v : U64) : (s.withAdapter v).mem = s.mem := rfl
@[simp] theorem State.withAdapter_cfg (s : State) (v : U64) : (s.withAdapter v).cfg = s.cfg := rfl
@[simp] theorem State.withAdapter_inbox (s : State) (v : U64) : (s.withAdapter v).inbox = s.inbox := rfl
@[simp] theorem State.withAdapter_reply (s : State) (v : U64) : (s.withAdapter v).reply = s.reply := rfl

/-! ### `State.withMem` -/

@[simp] theorem State.withMem_seedX (s : State) (m : Memory) : (s.withMem m).seedX = s.seedX := rfl
@[simp] theorem State.withMem_seedY (s : State) (m : Memory) : (s.withMem m).seedY = s.seedY := rfl
@[simp] theorem State.withMem_addr (s : State) (m : Memory) : (s.withMem m).addr = s.addr := rfl
@[simp] theorem State.withMem_len (s : State) (m : Memory) : (s.withMem m).len = s.len := rfl
@[simp] theorem State.withMem_resLo (s : State) (m : Memory) : (s.withMem m).resLo = s.resLo := rfl
@[simp] theorem State.withMem_resHi (s : State) (m : Memory) : (s.withMem m).resHi = s.resHi := rfl
@[simp] theorem State.withMem_cmd (s : State) (m : Memory) : (s.withMem m).cmd = s.cmd := rfl
@[simp] theorem State.withMem_done (s : State) (m : Memory) : (s.withMem m).done = s.done := rfl
@[simp] theorem State.withMem_halt (s : State) (m : Memory) : (s.withMem m).halt = s.halt := rfl
@[simp] theorem State.withMem_err (s : State) (m : Memory) : (s.withMem m).err = s.err := rfl
@[simp] theorem State.withMem_errInfo (s : State) (m : Memory) : (s.withMem m).errInfo = s.errInfo := rfl
@[simp] theorem State.withMem_cap (s : State) (m : Memory) : (s.withMem m).cap = s.cap := rfl
@[simp] theorem State.withMem_sel (s : State) (m : Memory) : (s.withMem m).sel = s.sel := rfl
@[simp] theorem State.withMem_work (s : State) (m : Memory) : (s.withMem m).work = s.work := rfl
@[simp] theorem State.withMem_stream (s : State) (m : Memory) : (s.withMem m).stream = s.stream := rfl
@[simp] theorem State.withMem_astate (s : State) (m : Memory) : (s.withMem m).astate = s.astate := rfl
@[simp] theorem State.withMem_avalid (s : State) (m : Memory) : (s.withMem m).avalid = s.avalid := rfl
@[simp] theorem State.withMem_mem (s : State) (m : Memory) : (s.withMem m).mem = m := rfl
@[simp] theorem State.withMem_cfg (s : State) (m : Memory) : (s.withMem m).cfg = s.cfg := rfl
@[simp] theorem State.withMem_inbox (s : State) (m : Memory) : (s.withMem m).inbox = s.inbox := rfl
@[simp] theorem State.withMem_reply (s : State) (m : Memory) : (s.withMem m).reply = s.reply := rfl

/-! ### `State.redraw` -/

@[simp] theorem State.redraw_seedX (s : State) : s.redraw.seedX = s.seedX := rfl
@[simp] theorem State.redraw_seedY (s : State) : s.redraw.seedY = s.seedY := rfl
@[simp] theorem State.redraw_addr (s : State) : s.redraw.addr = s.addr := rfl
@[simp] theorem State.redraw_len (s : State) : s.redraw.len = s.len := rfl
@[simp] theorem State.redraw_resLo (s : State) : s.redraw.resLo = s.resLo := rfl
@[simp] theorem State.redraw_resHi (s : State) : s.redraw.resHi = s.resHi := rfl
@[simp] theorem State.redraw_cmd (s : State) : s.redraw.cmd = s.cmd := rfl
@[simp] theorem State.redraw_done (s : State) : s.redraw.done = s.done := rfl
@[simp] theorem State.redraw_halt (s : State) : s.redraw.halt = s.halt := rfl
@[simp] theorem State.redraw_err (s : State) : s.redraw.err = s.err := rfl
@[simp] theorem State.redraw_errInfo (s : State) : s.redraw.errInfo = s.errInfo := rfl
@[simp] theorem State.redraw_cap (s : State) : s.redraw.cap = s.cap := rfl
@[simp] theorem State.redraw_sel (s : State) : s.redraw.sel = s.sel := rfl
@[simp] theorem State.redraw_work (s : State) : s.redraw.work = s.work := rfl
@[simp] theorem State.redraw_stream (s : State) : s.redraw.stream = s.stream := rfl
@[simp] theorem State.redraw_astate (s : State) : s.redraw.astate = s.astate := rfl
@[simp] theorem State.redraw_avalid (s : State) : s.redraw.avalid = s.avalid := rfl
@[simp] theorem State.redraw_mem (s : State) : s.redraw.mem = s.mem.redraw := rfl
@[simp] theorem State.redraw_cfg (s : State) : s.redraw.cfg = s.cfg := rfl
@[simp] theorem State.redraw_inbox (s : State) : s.redraw.inbox = s.inbox := rfl
@[simp] theorem State.redraw_reply (s : State) : s.redraw.reply = s.reply := rfl

/-! ### `State.answer` -/

@[simp] theorem State.answer_seedX (s : State) (v : U64) : (s.answer v).seedX = s.seedX := rfl
@[simp] theorem State.answer_seedY (s : State) (v : U64) : (s.answer v).seedY = s.seedY := rfl
@[simp] theorem State.answer_addr (s : State) (v : U64) : (s.answer v).addr = s.addr := rfl
@[simp] theorem State.answer_len (s : State) (v : U64) : (s.answer v).len = s.len := rfl
@[simp] theorem State.answer_resLo (s : State) (v : U64) : (s.answer v).resLo = s.resLo := rfl
@[simp] theorem State.answer_resHi (s : State) (v : U64) : (s.answer v).resHi = s.resHi := rfl
@[simp] theorem State.answer_cmd (s : State) (v : U64) : (s.answer v).cmd = s.cmd := rfl
@[simp] theorem State.answer_done (s : State) (v : U64) : (s.answer v).done = s.done := rfl
@[simp] theorem State.answer_halt (s : State) (v : U64) : (s.answer v).halt = s.halt := rfl
@[simp] theorem State.answer_err (s : State) (v : U64) : (s.answer v).err = s.err := rfl
@[simp] theorem State.answer_errInfo (s : State) (v : U64) : (s.answer v).errInfo = s.errInfo := rfl
@[simp] theorem State.answer_cap (s : State) (v : U64) : (s.answer v).cap = s.cap := rfl
@[simp] theorem State.answer_sel (s : State) (v : U64) : (s.answer v).sel = s.sel := rfl
@[simp] theorem State.answer_work (s : State) (v : U64) : (s.answer v).work = s.work := rfl
@[simp] theorem State.answer_stream (s : State) (v : U64) : (s.answer v).stream = s.stream := rfl
@[simp] theorem State.answer_astate (s : State) (v : U64) : (s.answer v).astate = s.astate := rfl
@[simp] theorem State.answer_avalid (s : State) (v : U64) : (s.answer v).avalid = s.avalid := rfl
@[simp] theorem State.answer_mem (s : State) (v : U64) : (s.answer v).mem = s.mem := rfl
@[simp] theorem State.answer_cfg (s : State) (v : U64) : (s.answer v).cfg = s.cfg := rfl
@[simp] theorem State.answer_inbox (s : State) (v : U64) : (s.answer v).inbox = s.inbox := rfl
@[simp] theorem State.answer_reply (s : State) (v : U64) : (s.answer v).reply = some v := rfl

/-! ### `State.raise` -/

@[simp] theorem State.raise_seedX (s : State) (e : ErrCode) (info : U64) : (s.raise e info).seedX = s.seedX := rfl
@[simp] theorem State.raise_seedY (s : State) (e : ErrCode) (info : U64) : (s.raise e info).seedY = s.seedY := rfl
@[simp] theorem State.raise_addr (s : State) (e : ErrCode) (info : U64) : (s.raise e info).addr = s.addr := rfl
@[simp] theorem State.raise_len (s : State) (e : ErrCode) (info : U64) : (s.raise e info).len = s.len := rfl
@[simp] theorem State.raise_resLo (s : State) (e : ErrCode) (info : U64) : (s.raise e info).resLo = s.resLo := rfl
@[simp] theorem State.raise_resHi (s : State) (e : ErrCode) (info : U64) : (s.raise e info).resHi = s.resHi := rfl
@[simp] theorem State.raise_cmd (s : State) (e : ErrCode) (info : U64) : (s.raise e info).cmd = s.cmd := rfl
@[simp] theorem State.raise_done (s : State) (e : ErrCode) (info : U64) : (s.raise e info).done = false := rfl
@[simp] theorem State.raise_halt (s : State) (e : ErrCode) (info : U64) : (s.raise e info).halt = s.halt := rfl
@[simp] theorem State.raise_err (s : State) (e : ErrCode) (info : U64) : (s.raise e info).err = if s.err = .none then e else s.err := rfl
@[simp] theorem State.raise_errInfo (s : State) (e : ErrCode) (info : U64) : (s.raise e info).errInfo = if s.err = .none then info else s.errInfo := rfl
@[simp] theorem State.raise_cap (s : State) (e : ErrCode) (info : U64) : (s.raise e info).cap = s.cap := rfl
@[simp] theorem State.raise_sel (s : State) (e : ErrCode) (info : U64) : (s.raise e info).sel = s.sel := rfl
@[simp] theorem State.raise_work (s : State) (e : ErrCode) (info : U64) : (s.raise e info).work = { s.work with phase := .idle } := rfl
@[simp] theorem State.raise_stream (s : State) (e : ErrCode) (info : U64) : (s.raise e info).stream = s.stream := rfl
@[simp] theorem State.raise_astate (s : State) (e : ErrCode) (info : U64) : (s.raise e info).astate = s.astate := rfl
@[simp] theorem State.raise_avalid (s : State) (e : ErrCode) (info : U64) : (s.raise e info).avalid = s.avalid := rfl
@[simp] theorem State.raise_mem (s : State) (e : ErrCode) (info : U64) : (s.raise e info).mem = s.mem := rfl
@[simp] theorem State.raise_cfg (s : State) (e : ErrCode) (info : U64) : (s.raise e info).cfg = s.cfg := rfl
@[simp] theorem State.raise_inbox (s : State) (e : ErrCode) (info : U64) : (s.raise e info).inbox = s.inbox := rfl
@[simp] theorem State.raise_reply (s : State) (e : ErrCode) (info : U64) : (s.raise e info).reply = s.reply := rfl

/-! ### `State.fatal` -/

@[simp] theorem State.fatal_seedX (s : State) : s.fatal.seedX = s.seedX := rfl
@[simp] theorem State.fatal_seedY (s : State) : s.fatal.seedY = s.seedY := rfl
@[simp] theorem State.fatal_addr (s : State) : s.fatal.addr = s.addr := rfl
@[simp] theorem State.fatal_len (s : State) : s.fatal.len = s.len := rfl
@[simp] theorem State.fatal_resLo (s : State) : s.fatal.resLo = s.resLo := rfl
@[simp] theorem State.fatal_resHi (s : State) : s.fatal.resHi = s.resHi := rfl
@[simp] theorem State.fatal_cmd (s : State) : s.fatal.cmd = s.cmd := rfl
@[simp] theorem State.fatal_done (s : State) : s.fatal.done = false := rfl
@[simp] theorem State.fatal_halt (s : State) : s.fatal.halt = true := rfl
@[simp] theorem State.fatal_err (s : State) : s.fatal.err = .fatal := rfl
@[simp] theorem State.fatal_errInfo (s : State) : s.fatal.errInfo = s.stream.fill.setWidth 64 := rfl
@[simp] theorem State.fatal_cap (s : State) : s.fatal.cap = s.cap := rfl
@[simp] theorem State.fatal_sel (s : State) : s.fatal.sel = s.sel := rfl
@[simp] theorem State.fatal_work (s : State) : s.fatal.work = { s.work with phase := .idle } := rfl
@[simp] theorem State.fatal_stream (s : State) : s.fatal.stream = s.stream := rfl
@[simp] theorem State.fatal_astate (s : State) : s.fatal.astate = s.astate := rfl
@[simp] theorem State.fatal_avalid (s : State) : s.fatal.avalid = s.avalid := rfl
@[simp] theorem State.fatal_mem (s : State) : s.fatal.mem = s.mem := rfl
@[simp] theorem State.fatal_cfg (s : State) : s.fatal.cfg = s.cfg := rfl
@[simp] theorem State.fatal_inbox (s : State) : s.fatal.inbox = s.inbox := rfl
@[simp] theorem State.fatal_reply (s : State) : s.fatal.reply = s.reply := rfl

/-! ### `State.clearError` -/

@[simp] theorem State.clearError_seedX (s : State) : s.clearError.seedX = s.seedX := rfl
@[simp] theorem State.clearError_seedY (s : State) : s.clearError.seedY = s.seedY := rfl
@[simp] theorem State.clearError_addr (s : State) : s.clearError.addr = s.addr := rfl
@[simp] theorem State.clearError_len (s : State) : s.clearError.len = s.len := rfl
@[simp] theorem State.clearError_resLo (s : State) : s.clearError.resLo = s.resLo := rfl
@[simp] theorem State.clearError_resHi (s : State) : s.clearError.resHi = s.resHi := rfl
@[simp] theorem State.clearError_cmd (s : State) : s.clearError.cmd = s.cmd := rfl
@[simp] theorem State.clearError_done (s : State) : s.clearError.done = s.done := rfl
@[simp] theorem State.clearError_halt (s : State) : s.clearError.halt = s.halt := rfl
@[simp] theorem State.clearError_err (s : State) : s.clearError.err = .none := rfl
@[simp] theorem State.clearError_errInfo (s : State) : s.clearError.errInfo = 0#64 := rfl
@[simp] theorem State.clearError_cap (s : State) : s.clearError.cap = s.cap := rfl
@[simp] theorem State.clearError_sel (s : State) : s.clearError.sel = s.sel := rfl
@[simp] theorem State.clearError_work (s : State) : s.clearError.work = s.work := rfl
@[simp] theorem State.clearError_stream (s : State) : s.clearError.stream = s.stream := rfl
@[simp] theorem State.clearError_astate (s : State) : s.clearError.astate = s.astate := rfl
@[simp] theorem State.clearError_avalid (s : State) : s.clearError.avalid = s.avalid := rfl
@[simp] theorem State.clearError_mem (s : State) : s.clearError.mem = s.mem := rfl
@[simp] theorem State.clearError_cfg (s : State) : s.clearError.cfg = s.cfg := rfl
@[simp] theorem State.clearError_inbox (s : State) : s.clearError.inbox = s.inbox := rfl
@[simp] theorem State.clearError_reply (s : State) : s.clearError.reply = s.reply := rfl

/-! ### `State.badAccess` -/

@[simp] theorem State.badAccess_seedX (s : State) (idx : BitVec 5) : (s.badAccess idx).seedX = s.seedX := rfl
@[simp] theorem State.badAccess_seedY (s : State) (idx : BitVec 5) : (s.badAccess idx).seedY = s.seedY := rfl
@[simp] theorem State.badAccess_addr (s : State) (idx : BitVec 5) : (s.badAccess idx).addr = s.addr := rfl
@[simp] theorem State.badAccess_len (s : State) (idx : BitVec 5) : (s.badAccess idx).len = s.len := rfl
@[simp] theorem State.badAccess_resLo (s : State) (idx : BitVec 5) : (s.badAccess idx).resLo = s.resLo := rfl
@[simp] theorem State.badAccess_resHi (s : State) (idx : BitVec 5) : (s.badAccess idx).resHi = s.resHi := rfl
@[simp] theorem State.badAccess_cmd (s : State) (idx : BitVec 5) : (s.badAccess idx).cmd = s.cmd := rfl
@[simp] theorem State.badAccess_done (s : State) (idx : BitVec 5) : (s.badAccess idx).done = s.done := rfl
@[simp] theorem State.badAccess_halt (s : State) (idx : BitVec 5) : (s.badAccess idx).halt = s.halt := rfl
@[simp] theorem State.badAccess_err (s : State) (idx : BitVec 5) : (s.badAccess idx).err = if s.err = .none then .reg else s.err := rfl
@[simp] theorem State.badAccess_errInfo (s : State) (idx : BitVec 5) : (s.badAccess idx).errInfo = if s.err = .none then idx.setWidth 64 else s.errInfo := rfl
@[simp] theorem State.badAccess_cap (s : State) (idx : BitVec 5) : (s.badAccess idx).cap = s.cap := rfl
@[simp] theorem State.badAccess_sel (s : State) (idx : BitVec 5) : (s.badAccess idx).sel = s.sel := rfl
@[simp] theorem State.badAccess_work (s : State) (idx : BitVec 5) : (s.badAccess idx).work = s.work := rfl
@[simp] theorem State.badAccess_stream (s : State) (idx : BitVec 5) : (s.badAccess idx).stream = s.stream := rfl
@[simp] theorem State.badAccess_astate (s : State) (idx : BitVec 5) : (s.badAccess idx).astate = s.astate := rfl
@[simp] theorem State.badAccess_avalid (s : State) (idx : BitVec 5) : (s.badAccess idx).avalid = s.avalid := rfl
@[simp] theorem State.badAccess_mem (s : State) (idx : BitVec 5) : (s.badAccess idx).mem = s.mem := rfl
@[simp] theorem State.badAccess_cfg (s : State) (idx : BitVec 5) : (s.badAccess idx).cfg = s.cfg := rfl
@[simp] theorem State.badAccess_inbox (s : State) (idx : BitVec 5) : (s.badAccess idx).inbox = s.inbox := rfl
@[simp] theorem State.badAccess_reply (s : State) (idx : BitVec 5) : (s.badAccess idx).reply = s.reply := rfl

/-! ### `State.withAbsorbed` -/

@[simp] theorem State.withAbsorbed_seedX (s : State) (x : Absorb) : (s.withAbsorbed x).seedX = s.seedX := rfl
@[simp] theorem State.withAbsorbed_seedY (s : State) (x : Absorb) : (s.withAbsorbed x).seedY = s.seedY := rfl
@[simp] theorem State.withAbsorbed_addr (s : State) (x : Absorb) : (s.withAbsorbed x).addr = s.addr := rfl
@[simp] theorem State.withAbsorbed_len (s : State) (x : Absorb) : (s.withAbsorbed x).len = s.len := rfl
@[simp] theorem State.withAbsorbed_resLo (s : State) (x : Absorb) : (s.withAbsorbed x).resLo = s.resLo := rfl
@[simp] theorem State.withAbsorbed_resHi (s : State) (x : Absorb) : (s.withAbsorbed x).resHi = s.resHi := rfl
@[simp] theorem State.withAbsorbed_cmd (s : State) (x : Absorb) : (s.withAbsorbed x).cmd = s.cmd := rfl
@[simp] theorem State.withAbsorbed_done (s : State) (x : Absorb) : (s.withAbsorbed x).done = s.done := rfl
@[simp] theorem State.withAbsorbed_halt (s : State) (x : Absorb) : (s.withAbsorbed x).halt = s.halt := rfl
@[simp] theorem State.withAbsorbed_err (s : State) (x : Absorb) : (s.withAbsorbed x).err = s.err := rfl
@[simp] theorem State.withAbsorbed_errInfo (s : State) (x : Absorb) : (s.withAbsorbed x).errInfo = s.errInfo := rfl
@[simp] theorem State.withAbsorbed_cap (s : State) (x : Absorb) : (s.withAbsorbed x).cap = s.cap := rfl
@[simp] theorem State.withAbsorbed_sel (s : State) (x : Absorb) : (s.withAbsorbed x).sel = s.sel := rfl
@[simp] theorem State.withAbsorbed_work (s : State) (x : Absorb) : (s.withAbsorbed x).work = { s.work with phase := x.phase } := rfl
@[simp] theorem State.withAbsorbed_stream (s : State) (x : Absorb) : (s.withAbsorbed x).stream = x.ctx := rfl
@[simp] theorem State.withAbsorbed_astate (s : State) (x : Absorb) : (s.withAbsorbed x).astate = s.astate := rfl
@[simp] theorem State.withAbsorbed_avalid (s : State) (x : Absorb) : (s.withAbsorbed x).avalid = s.avalid := rfl
@[simp] theorem State.withAbsorbed_mem (s : State) (x : Absorb) : (s.withAbsorbed x).mem = s.mem := rfl
@[simp] theorem State.withAbsorbed_cfg (s : State) (x : Absorb) : (s.withAbsorbed x).cfg = s.cfg := rfl
@[simp] theorem State.withAbsorbed_inbox (s : State) (x : Absorb) : (s.withAbsorbed x).inbox = s.inbox := rfl
@[simp] theorem State.withAbsorbed_reply (s : State) (x : Absorb) : (s.withAbsorbed x).reply = s.reply := rfl

end Sys2Proof.Machine
end

