-- ==== Sys2Proof/Laws/Commands.lean ====
section
/-! SUPPORT. For each operation that commands share, one lemma that says all it can do. -/

namespace Sys2Proof.Machine

open Sys2Proof

/-- All that the write of a command can do, before and around what the command itself does. -/
theorem commandWrite_cases (w : BitVec 32) (pendingOk : Bool) (go : State → State) (s : State) :
    (s.halt = true ∧ commandWrite w pendingOk go s = s.retire) ∨
    (s.halt = false ∧ 32 ≤ s.stream.fill.toNat ∧ commandWrite w pendingOk go s = (s.retire.startCommand w).fatal) ∨
    (s.halt = false ∧ s.stream.fill.toNat < 32 ∧ s.err ≠ .none ∧ pendingOk = false ∧
      commandWrite w pendingOk go s = s.retire.startCommand w) ∨
    (s.halt = false ∧ s.stream.fill.toNat < 32 ∧ (s.err = .none ∨ pendingOk = true) ∧
      commandWrite w pendingOk go s = go (s.retire.startCommand w)) := by
  by_cases h1 : s.halt = true
  · exact .inl ⟨h1, by simp [commandWrite, h1]⟩
  have h1' : s.halt = false := by simpa using h1
  by_cases h2 : 32 ≤ s.stream.fill.toNat
  · exact .inr (.inl ⟨h1', h2, by simp [commandWrite, h1', h2]⟩)
  have h2' : s.stream.fill.toNat < 32 := by omega
  by_cases h3 : s.err ≠ .none ∧ pendingOk = false
  · exact .inr (.inr (.inl ⟨h1', h2', h3.1, h3.2, by simp [commandWrite, h1', h2, h3.1, h3.2]⟩))
  · refine .inr (.inr (.inr ⟨h1', h2', ?_, ?_⟩))
    · by_cases h : s.err = .none
      · exact .inl h
      · exact .inr (by simpa [h] using h3)
    · simp only [commandWrite, State.retire_halt, h1', State.startCommand_stream, State.retire_stream, h2,
        State.startCommand_err, State.retire_err]
      simp only [Bool.false_eq_true, if_false]
      exact if_neg h3

/-- A command that is written while the core runs, with the buffer invariant and no pending error (or with a command that
does not mind one), is its body and then `settle`. -/
theorem runCommand_eq {i : Instr} {body : State → Except Raise State} {s : State} (h1 : s.halt = false)
    (h2 : s.stream.fill.toNat < 32) (h3 : s.err = .none ∨ runsWhilePending i = true) :
    runCommand i body s = settle (body (s.retire.startCommand (encode i))) := by
  rcases commandWrite_cases (encode i) (runsWhilePending i) (fun s => settle (body s)) s with h | h | h | h
  · simp [h1] at h
  · omega
  · rcases h3 with h3 | h3
    · exact absurd h3 h.2.2.1
    · simp [h3] at h
  · exact h.2.2.2

/-- A command while the core is halted only takes the event from the port. -/
theorem runCommand_halted {i : Instr} {body : State → Except Raise State} {s : State} (h : s.halt = true) :
    runCommand i body s = s.retire := by
  simp [runCommand, commandWrite, h]

/-- All a one-shot frame can answer. -/
theorem oneShot_cases (W : Nat) (a : Discipline) (body : Work → Except BusStop Work) (s : State) :
    (s.misaligned W a = true ∧ oneShot W a body s = .error ⟨.align, s.addr, s⟩) ∨
    (s.misaligned W a = false ∧ s.outOfRange = true ∧ oneShot W a body s = .error ⟨.range, s.addr, s⟩) ∨
    (s.misaligned W a = false ∧ s.outOfRange = false ∧
      ((∃ w, body { s.work with pos := s.addr } = .ok w ∧ oneShot W a body s = .ok (s.withWork w)) ∨
       ∃ x, body { s.work with pos := s.addr } = .error x ∧
         oneShot W a body s = .error ⟨.bus, BitVec.ofNat 64 x.addr, s.withWork x.work⟩)) := by
  unfold oneShot
  by_cases h1 : s.misaligned W a = true
  · exact .inl ⟨h1, if_pos h1⟩
  by_cases h2 : s.outOfRange = true
  · exact .inr (.inl ⟨by simpa using h1, h2, by rw [if_neg h1, if_pos h2]⟩)
  refine .inr (.inr ⟨by simpa using h1, by simpa using h2, ?_⟩)
  rw [if_neg h1, if_neg h2]
  cases h : body { s.work with pos := s.addr } with
  | ok w => exact .inl ⟨w, rfl, rfl⟩
  | error x => exact .inr ⟨x, rfl, rfl⟩

/-- The alignment check, in the terms of 20_memory.md R78. -/
theorem misaligned_iff (s : State) (W : Nat) (a : Discipline) :
    s.misaligned W a = true ↔ a = .aligned ∧ s.addr.toNat % W ≠ 0 := by
  simp [State.misaligned]

/-- The range check, in the terms of 60_exceptions.md R294. -/
theorem outOfRange_iff (s : State) : s.outOfRange = true ↔ 2 ^ 64 < s.addr.toNat + s.len.toNat := by
  simp [State.outOfRange]

/-- How a command ends. -/
theorem settle_ok (s : State) : settle (.ok s) = s.complete.redraw := rfl

theorem settle_error (r : Raise) : settle (.error r) = (r.state.raise r.code r.info).redraw := rfl

/-- A streaming command other than `SINIT` runs on a live context, or fails with `SSTATE`. -/
theorem needLive_cases (s : State) (k : State → Except Raise State) :
    (s.stream.sstate = .live ∧ needLive s k = k s) ∨
    (s.stream.sstate ≠ .live ∧ needLive s k = .error ⟨.stream, s.stream.sstate.code.setWidth 64, s⟩) := by
  by_cases h : s.stream.sstate = .live
  · exact .inl ⟨h, if_pos h⟩
  · exact .inr ⟨h, if_neg h⟩

/-- `AWRITE` and `AFIN` run on an adapter that exists, or fail. -/
theorem needAdapter_cases (s : State) (k : State → Except Raise State) :
    (s.avalid = true ∧ needAdapter s k = k s) ∨ (s.avalid = false ∧ needAdapter s k = .error ⟨.adapt, 0#64, s⟩) := by
  unfold needAdapter
  cases h : s.avalid <;> simp

/-- A write of any register but `CMD`: ignored, or one of the four operand registers, or a bad access. -/
theorem writeRegister_cases (idx : BitVec 5) (v : U64) (s : State) :
    (s.halt = true ∧ writeRegister idx v s = s.retire) ∨
    (s.halt = false ∧
      ((idx = 0x08#5 ∧ writeRegister idx v s = { s.retire with seedX := v }) ∨
       (idx = 0x09#5 ∧ writeRegister idx v s = { s.retire with seedY := v }) ∨
       (idx = 0x0A#5 ∧ writeRegister idx v s = { s.retire with addr := v }) ∨
       (idx = 0x0B#5 ∧ writeRegister idx v s = { s.retire with len := v }) ∨
       (idx ≠ 0x08#5 ∧ idx ≠ 0x09#5 ∧ idx ≠ 0x0A#5 ∧ idx ≠ 0x0B#5 ∧
         writeRegister idx v s = s.retire.badAccess idx))) := by
  cases h : s.halt with
  | true => exact .inl ⟨rfl, by simp [writeRegister, h]⟩
  | false =>
    refine .inr ⟨rfl, ?_⟩
    have hw : writeRegister idx v s =
        match regOfIndex idx with
        | some .seedX => { s.retire with seedX := v }
        | some .seedY => { s.retire with seedY := v }
        | some .addr => { s.retire with addr := v }
        | some .len => { s.retire with len := v }
        | _ => s.retire.badAccess idx := if_neg (by simp [h])
    rw [hw]
    clear hw
    revert idx
    intro idx
    have hi : idx = BitVec.ofNat 5 idx.toNat := by simp
    have hl := idx.isLt
    generalize idx.toNat = n at hi hl
    subst hi
    interval_cases n <;> simp [regOfIndex]

/-- Resolution leaves the cached selection, or writes what `CAP` selects. -/
theorem uResolve_eq (s : State) :
    uResolve s = ({ s with sel := some (s.sel.getD (resolveCap s.cap)) }, s.sel.getD (resolveCap s.cap)) := by
  unfold uResolve
  cases h : s.sel with
  | none => rfl
  | some i =>
    simp only [Option.getD_some]
    rw [← h]

/-- The meaning of a command is one frame around a body. -/
theorem exec_eq (i : Instr) (s : State) :
    exec i s = .next (runCommand i
      (match i with
       | .nop => .ok
       | .clrerr => fun s => .ok s.clearError
       | .hash0 e a => hash0Body e a
       | .hash1 e a => hash1Body e a
       | .hash2 e a => hash2Body e a
       | .hash3 a => hash3Body a
       | .hash3x a => hash3xBody a
       | .sinit => sinitBody
       | .supd => supdBody
       | .sfin => sfinBody
       | .sfinx => sfinxBody
       | .ainit => ainitBody
       | .awrite e a => awriteBody e a
       | .afin => afinBody) s) := by
  cases i <;> rfl

/-- All a step can be. -/
theorem step_cases (s : State) :
    (s.due = .idle ∧ step s = .next s) ∨
    (∃ i, s.due = .command i ∧ step s = exec i s) ∨
    (∃ v, s.due = .illegal v ∧ step s = .next (illegalCommand v s)) ∨
    (∃ idx v, s.due = .write idx v ∧ step s = .next (writeRegister idx v s)) ∨
    (∃ idx, s.due = .read idx ∧ step s = .next (readRegister idx s)) ∨
    (∃ ev, s.due = .event ev ∧ step s = .next (environment ev s)) := by
  unfold step
  cases h : s.due <;> simp

/-! ### The streaming run leaves `TOTAL` and `SSTATE` -/

/-- What every part of `uABSORB` leaves alone. -/
def Absorb.SameCounts (x y : Absorb) : Prop := y.ctx.total = x.ctx.total ∧ y.ctx.sstate = x.ctx.sstate

theorem copyIn_counts {ε : Type} (src : ByteSource ε) (n : Nat) : ∀ (j dst : Nat) (x : Absorb),
    match copyIn src j dst n x with
    | .ok y => x.SameCounts y ∧ y.ctx.fill = x.ctx.fill ∧ y.ctx.acc = x.ctx.acc
    | .error y => x.SameCounts y.at_ ∧ y.at_.ctx.fill = x.ctx.fill ∧ y.at_.ctx.acc = x.ctx.acc := by
  induction n with
  | zero => intro j dst x; exact ⟨⟨rfl, rfl⟩, rfl, rfl⟩
  | succ n ih =>
    intro j dst x
    unfold copyIn
    split
    · next r hr =>
      split at hr
      · have := ih (j + 1) (dst + 1) { x with ctx := { x.ctx with buf := x.ctx.buf.setIfInBounds dst ‹Byte› } }
        rw [hr] at this
        exact this
      · cases hr
    · next r hr =>
      split at hr
      · have := ih (j + 1) (dst + 1) { x with ctx := { x.ctx with buf := x.ctx.buf.setIfInBounds dst ‹Byte› } }
        rw [hr] at this
        exact this
      · injection hr with hr
        subst hr
        exact ⟨⟨rfl, rfl⟩, rfl, rfl⟩

theorem absorbDirect_counts {ε : Type} (k : Config) (src : ByteSource ε) (n : Nat) : ∀ (j : Nat) (x : Absorb),
    match absorbDirect k src j n x with
    | .ok y => x.SameCounts y ∧ y.ctx.fill = x.ctx.fill ∧ y.ctx.buf = x.ctx.buf
    | .error y => x.SameCounts y.at_ ∧ y.at_.ctx.fill = x.ctx.fill ∧ y.at_.ctx.buf = x.ctx.buf := by
  induction n with
  | zero => intro j x; exact ⟨⟨rfl, rfl⟩, rfl, rfl⟩
  | succ n ih =>
    intro j x
    unfold absorbDirect
    split
    · next r hr =>
      split at hr
      · have := ih (j + 32) { x with ctx := { x.ctx with acc := ‹Quad› } }
        rw [hr] at this
        exact this
      · cases hr
    · next r hr =>
      split at hr
      · have := ih (j + 32) { x with ctx := { x.ctx with acc := ‹Quad› } }
        rw [hr] at this
        exact this
      · injection hr with hr
        subst hr
        exact ⟨⟨rfl, rfl⟩, rfl, rfl⟩

end Sys2Proof.Machine
end

