-- ==== Sys2Proof/Laws/Memory.lean ====
section
/-! SUPPORT. The laws of the memory: what every update leaves at every address, that every update keeps the canonical form, and
all that a read can answer. -/

namespace Sys2Proof.Machine

open Sys2Proof

/-! ### The byte an address holds -/

theorem cellAt_putCell (a : Nat) (b : Byte) (cs : List Host.Cell) (x : Nat) :
    cellAt (putCell a b cs) x = if x = a then b else cellAt cs x := by
  induction cs with
  | nil => by_cases h : a = x <;> simp [putCell, cellAt, h, eq_comm]
  | cons c rest ih =>
    obtain ⟨k, v⟩ := c
    simp only [putCell]
    split
    · by_cases h : a = x <;> simp [cellAt, h, eq_comm]
    · split
      · subst_vars
        by_cases h : x = k <;> simp [cellAt, h, eq_comm]
      · simp only [cellAt, ih]
        split <;> split <;> simp_all

theorem cellAt_filter_ne (a : Nat) (cs : List Host.Cell) (x : Nat) :
    cellAt (cs.filter fun c => c.1 ≠ a) x = if x = a then Memory.unlisted else cellAt cs x := by
  induction cs with
  | nil => simp [cellAt]
  | cons c rest ih =>
    obtain ⟨k, v⟩ := c
    by_cases hk : k = a
    · subst hk
      rw [List.filter_cons_of_neg (by simp)]
      rw [ih]
      split
      · rfl
      · simp only [cellAt]
        split <;> simp_all
    · rw [List.filter_cons_of_pos (by simpa using hk)]
      simp only [cellAt, ih]
      split <;> split <;> simp_all

/-- A store is read back, and every other address reads as before. -/
theorem Memory.held_store (m : Memory) (a : Nat) (b : Byte) (x : Nat) :
    (m.store a b).held x = if x = a then b else m.held x := by
  unfold Memory.store
  split
  · next h => subst h; exact cellAt_filter_ne a m.cells x
  · exact cellAt_putCell a b m.cells x

@[simp] theorem Memory.store_unmapped (m : Memory) (a : Nat) (b : Byte) : (m.store a b).unmapped = m.unmapped := by
  unfold Memory.store
  split <;> rfl

@[simp] theorem Memory.store_racing (m : Memory) (a : Nat) (b : Byte) : (m.store a b).racing = m.racing := by
  unfold Memory.store
  split <;> rfl

@[simp] theorem Memory.redraw_cells (m : Memory) : m.redraw.cells = m.cells := by
  unfold Memory.redraw
  split <;> rfl

@[simp] theorem Memory.redraw_unmapped (m : Memory) : m.redraw.unmapped = m.unmapped := by
  unfold Memory.redraw
  split <;> rfl

@[simp] theorem Memory.redraw_racing (m : Memory) : m.redraw.racing = m.racing := by
  unfold Memory.redraw
  split <;> rfl

@[simp] theorem Memory.redraw_held (m : Memory) (a : Nat) : m.redraw.held a = m.held a := by
  simp [Memory.held]

@[simp] theorem Memory.redraw_mapped (m : Memory) (a : Nat) : m.redraw.mapped a = m.mapped a := by
  simp [Memory.mapped]

/-! ### Which pages are mapped -/

theorem mem_putPage (p : Nat) (ps : List Nat) (q : Nat) : q ∈ putPage p ps ↔ q = p ∨ q ∈ ps := by
  induction ps with
  | nil => simp [putPage]
  | cons x rest ih =>
    simp only [putPage]
    split
    · simp
    · split
      · subst_vars
        simp
      · simp only [List.mem_cons, ih]
        tauto

/-! ### The canonical form -/

theorem mem_putCell {a : Nat} {b : Byte} {cs : List Host.Cell} {c : Host.Cell} (h : c ∈ putCell a b cs) :
    c = (a, b) ∨ c ∈ cs := by
  induction cs with
  | nil => simpa [putCell] using h
  | cons x rest ih =>
    obtain ⟨k, v⟩ := x
    simp only [putCell] at h
    split at h
    · simpa using h
    · split at h
      · rcases List.mem_cons.1 h with h | h
        · exact .inl h
        · exact .inr (List.mem_cons_of_mem _ h)
      · rcases List.mem_cons.1 h with h | h
        · exact .inr (h ▸ List.mem_cons_self)
        · exact (ih h).imp_right (List.mem_cons_of_mem _)

theorem putCell_pairwise (a : Nat) (b : Byte) (cs : List Host.Cell) (h : (cs.map Prod.fst).Pairwise (· < ·)) :
    ((putCell a b cs).map Prod.fst).Pairwise (· < ·) := by
  induction cs with
  | nil => simp [putCell]
  | cons c rest ih =>
    obtain ⟨k, v⟩ := c
    rw [List.map_cons, List.pairwise_cons] at h
    simp only [putCell]
    split
    · next hk =>
      simp only [List.map_cons, List.pairwise_cons]
      refine ⟨fun x hx => ?_, h⟩
      rcases List.mem_cons.1 hx with rfl | hx
      · exact hk
      · exact hk.trans (h.1 x hx)
    · split
      · next ha => subst ha; simpa using h
      · rw [List.map_cons, List.pairwise_cons]
        refine ⟨fun x hx => ?_, ih h.2⟩
        obtain ⟨c, hc, rfl⟩ := List.mem_map.1 hx
        rcases mem_putCell hc with rfl | hc
        · show k < a
          omega
        · exact h.1 _ (List.mem_map_of_mem hc)

theorem putPage_pairwise (p : Nat) (ps : List Nat) (h : ps.Pairwise (· < ·)) : (putPage p ps).Pairwise (· < ·) := by
  induction ps with
  | nil => simp [putPage]
  | cons q rest ih =>
    rw [List.pairwise_cons] at h
    simp only [putPage]
    split
    · next hq =>
      simp only [List.pairwise_cons]
      refine ⟨fun x hx => ?_, h⟩
      rcases List.mem_cons.1 hx with rfl | hx
      · exact hq
      · exact hq.trans (h.1 x hx)
    · split
      · rw [List.pairwise_cons]
        exact h
      · rw [List.pairwise_cons]
        refine ⟨fun x hx => ?_, ih h.2⟩
        rcases (mem_putPage p rest x).1 hx with rfl | hx
        · omega
        · exact h.1 x hx

theorem Memory.empty_wf : Memory.empty.wf := by decide

/-- A store keeps the canonical form. -/
theorem Memory.store_wf {m : Memory} (h : m.wf) {a : Nat} (ha : a < 2 ^ 64) (b : Byte) : (m.store a b).wf := by
  obtain ⟨h1, h2, h3⟩ := h
  unfold Memory.store
  split
  · exact ⟨h1.sublist (List.filter_sublist.map _), fun c hc => h2 c (List.mem_of_mem_filter hc), h3⟩
  · next hb =>
    refine ⟨putCell_pairwise a b m.cells h1, fun c hc => ?_, h3⟩
    rcases mem_putCell hc with rfl | hc
    · exact ⟨ha, hb⟩
    · exact h2 c hc

theorem Memory.mapPage_wf {m : Memory} (h : m.wf) (p : Nat) : (m.mapPage p).wf :=
  ⟨h.1, h.2.1, h.2.2.sublist List.filter_sublist⟩

theorem Memory.unmapPage_wf {m : Memory} (h : m.wf) (p : Nat) : (m.unmapPage p).wf :=
  ⟨h.1, h.2.1, putPage_pairwise p m.unmapped h.2.2⟩

theorem Memory.race_wf {m : Memory} (h : m.wf) (ps : List Nat) : (m.race ps).wf := h

theorem Memory.redraw_wf {m : Memory} (h : m.wf) : m.redraw.wf := by
  unfold Memory.redraw
  split <;> exact h

/-! ### Reads -/

@[simp] theorem Memory.bytes_length (m : Memory) (a n : Nat) : (m.bytes a n).length = n := by simp [Memory.bytes]

theorem Memory.bytes_succ (m : Memory) (a n : Nat) : m.bytes a (n + 1) = m.byte a :: m.bytes (a + 1) n := by
  simp only [Memory.bytes, List.range_succ_eq_map, List.map_cons, List.map_map, Nat.add_zero, List.cons.injEq, true_and]
  exact List.map_congr_left fun i _ => by simp [Nat.add_comm, Nat.add_left_comm]

/-- Where every byte of an access is mapped, the read answers the bytes. -/
theorem Memory.read_of_mapped (m : Memory) (n : Nat) :
    ∀ a, (∀ i < n, m.mapped (a + i) = true) → m.read a n = .ok (m.bytes a n) := by
  induction n with
  | zero => intro a _; rfl
  | succ n ih =>
    intro a h
    have h0 : m.mapped a = true := h 0 (by omega)
    have h1 := ih (a + 1) fun i hi => by
      have := h (i + 1) (by omega)
      rwa [Nat.add_comm i 1, ← Nat.add_assoc] at this
    rw [Memory.read, if_pos h0, h1, Memory.bytes_succ]

/-- A read that answers bytes answers those of its addresses, all of them mapped. -/
theorem Memory.read_ok (m : Memory) (n : Nat) :
    ∀ {a : Nat} {bs : List Byte}, m.read a n = .ok bs → bs = m.bytes a n ∧ ∀ i < n, m.mapped (a + i) = true := by
  induction n with
  | zero => intro a bs h; exact ⟨by simpa [Memory.read, Memory.bytes, eq_comm] using h, by simp⟩
  | succ n ih =>
    intro a bs h
    rw [Memory.read] at h
    split at h
    · next hm =>
      split at h
      · next b hb =>
        obtain ⟨rfl, h'⟩ := ih hb
        injection h with h
        refine ⟨by rw [← h, Memory.bytes_succ], fun i hi => ?_⟩
        cases i with
        | zero => exact hm
        | succ i =>
          have := h' i (by omega)
          rwa [Nat.add_assoc, Nat.add_comm 1 i] at this
      · cases h
    · cases h

/-- A read that fails answers the lowest unmapped address of its access (20_memory.md R73). -/
theorem Memory.read_error (m : Memory) (n : Nat) :
    ∀ {a x : Nat}, m.read a n = .error x →
      ∃ i < n, x = a + i ∧ m.mapped x = false ∧ ∀ j < i, m.mapped (a + j) = true := by
  induction n with
  | zero => intro a x h; cases h
  | succ n ih =>
    intro a x h
    rw [Memory.read] at h
    split at h
    · next hm =>
      split at h
      · cases h
      · next y hy =>
        injection h with h
        subst h
        obtain ⟨i, hi, rfl, hu, hj⟩ := ih hy
        refine ⟨i + 1, by omega, by omega, hu, fun j hj' => ?_⟩
        cases j with
        | zero => exact hm
        | succ j =>
          have := hj j (by omega)
          rwa [Nat.add_assoc, Nat.add_comm 1 j] at this
    · next hm =>
      injection h with h
      subst h
      exact ⟨0, by omega, by omega, by simpa using hm, by simp⟩

/-- All a fetch can answer: the word of its bytes, all mapped, or the lowest unmapped address. -/
theorem uFetch_cases (m : Memory) (W : Nat) (e : Endian) (pos : Nat) :
    (uFetch m W e pos = .ok (wordValue e (m.bytes pos W)) ∧ ∀ i < W, m.mapped (pos + i) = true) ∨
    ∃ i < W, uFetch m W e pos = .error (pos + i) ∧ m.mapped (pos + i) = false ∧ ∀ j < i, m.mapped (pos + j) = true := by
  unfold uFetch
  split
  · next bs h =>
    obtain ⟨rfl, hm⟩ := Memory.read_ok m W h
    exact .inl ⟨rfl, hm⟩
  · next x h =>
    obtain ⟨i, hi, rfl, hu, hj⟩ := Memory.read_error m W h
    exact .inr ⟨i, hi, rfl, hu, hj⟩

theorem uFetch_of_mapped (m : Memory) (W : Nat) (e : Endian) (pos : Nat) (h : ∀ i < W, m.mapped (pos + i) = true) :
    uFetch m W e pos = .ok (wordValue e (m.bytes pos W)) := by
  unfold uFetch
  rw [Memory.read_of_mapped m W pos h]

end Sys2Proof.Machine
end

