-- ==== Sys2Proof/Laws/PerInstr.lean ====
section
/-! SUPPORT. A property of every command, one lemma per constructor: the word the encoder writes is one the opcode map calls
legal (spec/30_encoding.md R110, R112), so the encoder (R115) and the map agree. -/

namespace Sys2Proof.Laws.EncodesLegally

/-- The datum that issues the command is legal, and its bits above the discipline bit are zero. -/
def Statement (i : Instr) : Prop := legalDatum (encodeDatum i) = true ∧ (encodeDatum i).extractLsb' 10 54 = 0#54

theorem nop : Statement .nop := ⟨by decide, by decide⟩

theorem clrerr : Statement .clrerr := ⟨by decide, by decide⟩

theorem hash0 (e : Endian) (a : Discipline) : Statement (.hash0 e a) := by
  cases e <;> cases a <;> exact ⟨by decide, by decide⟩

theorem hash1 (e : Endian) (a : Discipline) : Statement (.hash1 e a) := by
  cases e <;> cases a <;> exact ⟨by decide, by decide⟩

theorem hash2 (e : Endian) (a : Discipline) : Statement (.hash2 e a) := by
  cases e <;> cases a <;> exact ⟨by decide, by decide⟩

theorem hash3 (a : Discipline) : Statement (.hash3 a) := by
  cases a <;> exact ⟨by decide, by decide⟩

theorem hash3x (a : Discipline) : Statement (.hash3x a) := by
  cases a <;> exact ⟨by decide, by decide⟩

theorem sinit : Statement .sinit := ⟨by decide, by decide⟩

theorem supd : Statement .supd := ⟨by decide, by decide⟩

theorem sfin : Statement .sfin := ⟨by decide, by decide⟩

theorem sfinx : Statement .sfinx := ⟨by decide, by decide⟩

theorem ainit : Statement .ainit := ⟨by decide, by decide⟩

theorem awrite (e : Endian) (a : Discipline) : Statement (.awrite e a) := by
  cases e <;> cases a <;> exact ⟨by decide, by decide⟩

theorem afin : Statement .afin := ⟨by decide, by decide⟩

end Sys2Proof.Laws.EncodesLegally
end

