-- ==== Sys2Proof/Tests/Slice0.lean ====
section
/-! SUPPORT. Tests on fixed values, each with its source in spec/, and for every statement with hypotheses a concrete instance
that meets them. -/

namespace Sys2Proof.Tests

open Sys2Proof Sys2Proof.Machine

/-! ### Well-formedness: what each check refuses -/

/-- R118: `HASH3` with `E = 1`. -/
theorem test_legal_refuses_fixed_bit : legalDatum 0x0000000000000113#64 = false := by decide

/-- R118: bit 10 set. -/
theorem test_legal_refuses_reserved_bit : legalDatum 0x0000000000000412#64 = false := by decide

/-- R110: no command 0x15. -/
theorem test_legal_refuses_opcode : legalDatum 0x0000000000000015#64 = false := by decide

/-- R118: bits 63:32 not zero. -/
theorem test_legal_refuses_high_half : legalDatum 0x0000000100000012#64 = false := by decide

/-- R45: bits 31:4 of `CAP` are reserved. -/
theorem test_config_refuses_reserved_capability : ({ capReset := 0x00000011#32 } : Config).wellFormed = false := by decide

theorem test_default_config_wellFormed : Config.default.wellFormed = true := by decide

/-- A cell that lists what an unlisted address reads as is no canonical memory. -/
theorem test_memory_refuses_listed_zero : ¬ (⟨[(5, 0#8)], [], [], 0⟩ : Memory).wf := by decide

/-- Nor are cells out of order. -/
theorem test_memory_refuses_order : ¬ (⟨[(6, 1#8), (5, 1#8)], [], [], 0⟩ : Memory).wf := by decide

/-! ### Decoding: words written out from R104 and R110 -/

/-- `OPC = 0x00`. -/
theorem test_decode_nop : decode 0b00000000#64 = .ok .nop := by decide

/-- `OPC = 0x01`. -/
theorem test_decode_clrerr : decode 0b00000001#64 = .ok .clrerr := by decide

/-- `A = 1`, `E = 0`, `OPC = 0x10`. -/
theorem test_decode_hash0 : decode 0b1000010000#64 = .ok (.hash0 .little .aligned) := by decide

/-- `A = 0`, `E = 1`, `OPC = 0x11` (R117). -/
theorem test_decode_hash1 : decode 0b0100010001#64 = .ok (.hash1 .big .unaligned) := by decide

/-- `A = 1`, `E = 1`, `OPC = 0x12` (R118). -/
theorem test_decode_hash2 : decode 0b1100010010#64 = .ok (.hash2 .big .aligned) := by decide

/-- `A = 1`, `OPC = 0x13`. -/
theorem test_decode_hash3 : decode 0b1000010011#64 = .ok (.hash3 .aligned) := by decide

/-- `A = 0`, `OPC = 0x14`. -/
theorem test_decode_hash3x : decode 0b0000010100#64 = .ok (.hash3x .unaligned) := by decide

/-- `OPC = 0x20`. -/
theorem test_decode_sinit : decode 0b00100000#64 = .ok .sinit := by decide

/-- `OPC = 0x21` (R118). -/
theorem test_decode_supd : decode 0b00100001#64 = .ok .supd := by decide

/-- `OPC = 0x22`. -/
theorem test_decode_sfin : decode 0b00100010#64 = .ok .sfin := by decide

/-- `OPC = 0x23`. -/
theorem test_decode_sfinx : decode 0b00100011#64 = .ok .sfinx := by decide

/-- `OPC = 0x30`. -/
theorem test_decode_ainit : decode 0b00110000#64 = .ok .ainit := by decide

/-- `A = 0`, `E = 1`, `OPC = 0x31`. -/
theorem test_decode_awrite : decode 0b0100110001#64 = .ok (.awrite .big .unaligned) := by decide

/-- `OPC = 0x32`. -/
theorem test_decode_afin : decode 0b00110010#64 = .ok .afin := by decide

/-- R118: `WR LEN, 64` has `rw = 1`, `idx = 0x0B`. -/
theorem test_transaction_wr : decodeTransaction (0b1#1 ++ 0b01011#5 ++ 0x0000000000000040#64) = .wr 0x0B#5 64#64 := by decide

/-- R101: the data of a `RD` is ignored. -/
theorem test_transaction_rd : decodeTransaction (0b0#1 ++ 0b01100#5 ++ 0xFFFFFFFFFFFFFFFF#64) = .rd 0x0C#5 := by decide

/-- The table's numbering: the word of `HASH2.be.u` (R117). -/
theorem test_decodeTableWord : decodeTableWord 32 0x112 = some (.hash2 .big .unaligned) := by decide

/-! ### Memory unit: the examples of 40_memory_unit.md -/

/-- A memory that holds a byte list from an address on. -/
def memAt (base : Nat) (bs : List Byte) : Memory := (bs.zipIdx).foldl (fun m b => m.store (base + b.2) b.1) Memory.empty

/-- The bytes `00 01 ... n-1`. -/
def ramp (n : Nat) : List Byte := (List.range n).map (BitVec.ofNat 8)

/-- The bytes of the example of R133, with `pos` at the byte `11`. -/
def tailBytes : List Byte :=
  [0xAA#8, 0xBB#8, 0xCC#8, 0xDD#8, 0xEE#8, 0x11#8, 0x22#8, 0x33#8, 0x99#8, 0x99#8, 0x99#8, 0x99#8, 0x99#8]

/-- R131. -/
theorem test_uFetch_big :
    (uFetch (memAt 0x2003 [0x11#8, 0x22#8, 0x33#8, 0x44#8]) 4 .big 0x2003).toOption = some 0x11223344 := by decide

/-- R133, underside read, little-endian. -/
theorem test_uTail_underside : (uTail (memAt 0x2FF0 tailBytes) 8 .little .unaligned 0x2FF5 3).toOption = some 0x332211 := by
  decide

/-- R133, forward read, big-endian: `pos` at page offset 5. -/
theorem test_uTail_forward : (uTail (memAt 0x3000 tailBytes) 8 .big .unaligned 0x3005 3).toOption = some 0x112233 := by
  decide

/-- R132. -/
theorem test_uTailLen : uTailLen 8 13 = 5 ∧ uTailLen 8 32 = 8 ∧ uTailLen 4 16 = 4 := by decide

/-- R246. -/
theorem test_uMarker : uMarker 40#64 = [0x40#8, 0x01#8, 0#8, 0#8, 0#8, 0#8, 0#8, 0x80#8] ∧
    uMarker (0x1000000000000000#64) = [0#8, 0#8, 0#8, 0#8, 0#8, 0#8, 0#8, 0#8] := by decide

/-! ### One step of each command -/

/-- The next state of an outcome. -/
def nextOf : Host.Outcome State Fault Refusal → State
  | .next t => t
  | .fault f => nomatch f
  | .refused _ => State.reset

/-- The seeds of the examples in spec/. -/
def sx : U64 := 0x0123456789ABCDEF#64
def sy : U64 := 0x0F1E2D3C4B5A6978#64

/-- A running core with the ramp of `n` bytes at an address as the input of the next command. -/
def ready (base n : Nat) : State :=
  { State.reset with seedX := sx, seedY := sy, addr := .ofNat 64 base, len := .ofNat 64 n, mem := memAt base (ramp n) }

/-- A live context right after `SINIT sx, sy`. -/
def liveStream : Stream := { Stream.reset with acc := uG3Init sx sy, sstate := .live }

/-- R178. -/
theorem test_hash1 : (nextOf (exec (.hash1 .little .unaligned) (ready 0x1000 20))).resLo = 0x5A9DED1ED122D0AF#64 := by
  decide

/-- R198. -/
theorem test_hash2 : (nextOf (exec (.hash2 .little .unaligned) (ready 0x1000 40))).resLo = 0x350615F7CE559778#64 := by
  decide

/-- R194: big-endian, 13 bytes. -/
theorem test_hash2_big : (nextOf (exec (.hash2 .big .unaligned) (ready 0x1FFA 13))).resLo = 0xC9C49C05BAA642D5#64 := by
  decide

/-- R272 and R198: with `CAP = 1` the digest of `HASH2`, and `SEL = 0x9`. -/
theorem test_hash0 :
    (nextOf (exec (.hash0 .little .aligned) (ready 0x1000 40))).resLo = 0x350615F7CE559778#64 ∧
    selWord (nextOf (exec (.hash0 .little .aligned) (ready 0x1000 0))).sel = 0x9#32 := by decide

/-- R219. -/
theorem test_hash3 : (nextOf (exec (.hash3 .unaligned) (ready 0x1000 40))).resLo = 0x092BC8E146FD951D#64 := by decide

/-- R219, 13 bytes. -/
theorem test_hash3x :
    (nextOf (exec (.hash3x .aligned) (ready 0x1000 13))).resHi = 0xEE55ED1EE8D068C4#64 ∧
    (nextOf (exec (.hash3x .aligned) (ready 0x1000 13))).resLo = 0xBA4D3A8A374E0BCA#64 := by decide

/-- R241. -/
theorem test_sinit : (nextOf (exec .sinit (ready 0 0))).stream.acc =
    ⟨0x0123456789ABCDEF#64, 0x0F1E2D3C4B5A6978#64, 0xB3AFAAB6B2AEAAA6#64, 0x6A9FB2E81D5287BC#64⟩ := by decide

/-- R243: 40 bytes at once leave the state of its example. -/
theorem test_supd :
    let x := (nextOf (exec .supd { ready 0x1000 40 with stream := liveStream })).stream
    x.acc = ⟨0xBF5E4F31CA82AFD2#64, 0x299802F637BCFE79#64, 0x378A6DDFB802E754#64, 0x55D5E78876C42610#64⟩ ∧
    x.fill = 8#6 ∧ x.total = 40#64 ∧ x.buf.toList.take 8 = (ramp 40).drop 32 := by decide

/-- R253, trace 1. -/
theorem test_sfin :
    (nextOf (exec .sfin { State.reset with
      stream := { Stream.reset with acc := uG3Init 0#64 0#64, sstate := .live } })).resLo = 0x3C8426E33CB41606#64 := by decide

/-- R248. -/
theorem test_sfinx :
    let t := nextOf (exec .sfinx { State.reset with
      stream := { Stream.reset with acc := uG3Init 0#64 0#64, sstate := .live } })
    t.resHi = 0xA86CEEAEABBFCDE1#64 ∧ t.resLo = 0xCD2801D3B92237D6#64 ∧ t.status = 0x09#32 := by decide

/-- R274. -/
theorem test_ainit : (nextOf (exec .ainit (ready 0 0))).astate = sx ∧ (nextOf (exec .ainit (ready 0 0))).status = 0x21#32 := by
  decide

/-- R275. -/
theorem test_awrite :
    let t := nextOf (exec (.awrite .little .unaligned) { ready 0x1000 13 with avalid := true })
    t.astate = 0xC3F1C2BD078A0E03#64 ∧ t.resLo = 0#64 := by decide

/-- R276. -/
theorem test_afin : (nextOf (exec .afin { State.reset with avalid := true, astate := sx })).resLo = sx := by decide

/-- R277: while an error is pending. -/
theorem test_nop_pending :
    let t := nextOf (exec .nop { State.reset with err := .align, errInfo := 5#64 })
    t.err = .align ∧ t.errInfo = 5#64 ∧ t.done = true := by decide

/-- R278. -/
theorem test_clrerr :
    let t := nextOf (exec .clrerr { State.reset with err := .align, errInfo := 5#64 })
    t.err = .none ∧ t.errInfo = 0#64 ∧ t.status = 0x01#32 := by decide

/-- R312 row 10: the third fetch fails. -/
theorem test_supd_bus :
    let t := nextOf (exec .supd { ready 0x1FF0 40 with
      mem := (memAt 0x1FF0 (ramp 40)).unmapPage 2, stream := liveStream })
    t.err = .bus ∧ t.errInfo = 0x2000#64 ∧ t.stream.sstate = .none ∧ t.status = 0x02#32 := by decide

/-- 70-bit patterns and `withFetchWord`: the next step runs the command. -/
theorem test_withFetchWord :
    (nextOf (step (State.reset.withFetchWord 32 0x20))).stream.sstate = .live := by decide

/-- R312 row 9: `WR 0x0C, 1`. -/
theorem test_write_result_register :
    let t := nextOf (step { State.reset with inbox := [.port (encodeTransaction (.wr 0x0C#5 1#64))] })
    t.err = .reg ∧ t.errInfo = 0x0C#64 ∧ t.status = 0x02#32 := by decide

/-! ### Instances that meet the hypotheses of the statements -/

/-- A running core with one transaction on its port. -/
def withPort (t : Transaction) : State := { State.reset with inbox := [.port (encodeTransaction t)] }

/-- A core with a context that holds 13 bytes of the ramp and the next 27 as input (R243). -/
def midStream : State :=
  { ready 0x1000 40 with
    addr := 0x100D#64, len := 27#64,
    stream := { (nextOf (exec .supd { ready 0x1000 13 with stream := liveStream })).stream with sstate := .live } }

/-- A core that has selected a SIMD body it lacks (R302). -/
def simdCore : State := { State.reset with cap := 3#32, cfg := { capReset := 3#32 } }

/-- A broken core (R298). -/
def brokenCore (n : BitVec 6) : State := { State.reset with stream := { Stream.reset with fill := n } }

/-- A halted core (R298). -/
def haltedCore : State := { State.reset with halt := true, err := .fatal, errInfo := 32#64 }

/-- A core whose input of 40 bytes has its first 16 mapped (R312 row 10). -/
def holeCore : State :=
  { ready 0x1FF0 40 with mem := (memAt 0x1FF0 (ramp 40)).unmapPage 2, stream := liveStream, avalid := true }

theorem accepts_reset : State.reset.Accepts := ⟨by decide, by decide, by decide⟩

theorem accepts_ready (base n : Nat) : (ready base n).Accepts :=
  ⟨rfl, (by decide : (0#6).toNat < 32), rfl⟩

theorem witness_DecodeEncodeAgree :
    (Instr.awrite .big .aligned).wellFormed = true ∧ decode 0x331#64 = .ok (.awrite .big .aligned) := by decide

theorem witness_TransactionPattern :
    (0x2B0000000000000040#70).getLsbD 69 = true ∧ (0x0C0000000000000000#70).getLsbD 69 = false := by decide

theorem witness_StepRunsCommand :
    (withPort (.wr 0#5 0x212#64)).inbox = [.port (encodeTransaction (.wr 0#5 0x212#64))] ∧
    decodeTransaction (encodeTransaction (.wr 0#5 0x212#64)) = .wr 0#5 0x212#64 ∧
    decode 0x212#64 = .ok (.hash2 .little .aligned) ∧ State.reset.inbox = [] := by decide

theorem witness_IssuedCommandRuns :
    (withPort (issue (.hash3 .aligned))).inbox = [.port (encodeTransaction (issue (.hash3 .aligned)))] := by decide

theorem witness_ResetEvent : { haltedCore with inbox := [.reset] }.inbox = [.reset] := rfl

theorem witness_ReadRegisters :
    (withPort (.rd 0x0D#5)).inbox = [.port (encodeTransaction (.rd 0x0D#5))] ∧
    decodeTransaction (encodeTransaction (.rd 0x0D#5)) = .rd 0x0D#5 ∧ regOfIndex 0x0D#5 = some .resHi ∧
    State.reset.sel = none ∧ { State.reset with sel := some .gen2 }.sel = some .gen2 := by decide

theorem witness_OperandRegisters :
    (∀ idx ∈ [0x08#5, 0x09#5, 0x0A#5, 0x0B#5],
      (withPort (.wr idx 7#64)).inbox = [.port (encodeTransaction (.wr idx 7#64))] ∧
      decodeTransaction (encodeTransaction (.wr idx 7#64)) = .wr idx 7#64 ∧ (withPort (.wr idx 7#64)).halt = false ∧
      (withPort (.wr idx 7#64)).due ≠ .event .reset) := by decide

theorem witness_OperandRegisters_step :
    step (withPort (.wr 0x08#5 7#64)) = .next (nextOf (step (withPort (.wr 0x08#5 7#64)))) := rfl

theorem witness_BadRegisterAccess_write :
    ∀ idx ∈ [1#5, 7#5, 12#5, 31#5],
      decodeTransaction (encodeTransaction (.wr idx 7#64)) = .wr idx 7#64 ∧ (withPort (.wr idx 7#64)).halt = false ∧
      (1 ≤ idx.toNat ∧ idx.toNat ≤ 7 ∨ 12 ≤ idx.toNat) ∧ (withPort (.wr idx 7#64)).err = .none ∧
      { withPort (.wr idx 7#64) with err := .bus }.err ≠ .none := by decide

theorem witness_BadRegisterAccess_read :
    ∀ idx ∈ [6#5, 7#5, 14#5, 31#5],
      decodeTransaction (encodeTransaction (.rd idx)) = .rd idx ∧ (idx.toNat = 6 ∨ idx.toNat = 7 ∨ 14 ≤ idx.toNat) ∧
      (withPort (.rd idx)).err = .none ∧ { withPort (.rd idx) with err := .bus }.err ≠ .none := by decide

theorem witness_BadRegisterAccess_halted :
    { haltedCore with inbox := [.port (encodeTransaction (.wr 1#5 7#64))] }.halt = true ∧
    decodeTransaction (encodeTransaction (.wr 1#5 7#64)) = .wr 1#5 7#64 := by decide

/-- A core with a pending error and a `FILL` at its bound. -/
def pendingCore : State := { brokenCore 31#6 with err := .align, errInfo := 1#64 }

theorem witness_FirstErrorWins :
    pendingCore.halt = false ∧ pendingCore.stream.fill.toNat < 32 ∧ pendingCore.err ≠ .none ∧
    Instr.sinit ≠ .nop ∧ Instr.sinit ≠ .clrerr ∧
    { pendingCore with inbox := [.port (encodeTransaction (.wr 0#5 0x113#64))] }.due = .illegal 0x113#64 := by decide

theorem witness_FirstErrorWins_step : step pendingCore = .next pendingCore := rfl

theorem witness_IllegalCommand :
    decodeTransaction (encodeTransaction (.wr 0#5 0x100000012#64)) = .wr 0#5 0x100000012#64 ∧
    decode 0x100000012#64 = .error .highHalf ∧ (withPort (.wr 0#5 0x100000012#64)).halt = false ∧
    (withPort (.wr 0#5 0x100000012#64)).stream.fill.toNat < 32 ∧ (withPort (.wr 0#5 0x100000012#64)).err = .none ∧
    pendingCore.err ≠ .none := by decide

theorem witness_FatalHalts :
    (∀ n ∈ [32#6, 63#6], (brokenCore n).halt = false ∧ 32 ≤ (brokenCore n).stream.fill.toNat ∧
      { brokenCore n with inbox := [.port (encodeTransaction (.wr 0#5 0x15#64))] }.due = .illegal 0x15#64) ∧
    haltedCore.halt = true ∧ haltedCore.err = .fatal ∧
    decodeTransaction (encodeTransaction (.wr 0#5 1#64)) = .wr 0#5 1#64 ∧
    decodeTransaction (encodeTransaction (.rd 6#5)) = .rd 6#5 ∧
    decodeTransaction (encodeTransaction (.rd 2#5)) = .rd 2#5 ∧
    haltedCore.due ≠ .event .reset := by decide

theorem witness_FatalHalts_step : step haltedCore = .next haltedCore := rfl

theorem witness_FatalHalts_reachable : Reachable State.reset := .reset []

theorem witness_StreamError :
    State.reset.Accepts ∧
    (∀ i ∈ [Instr.supd, .sfin, .sfinx], i.needsLive = true) ∧ State.reset.stream.sstate ≠ .live ∧
    ({ Stream.reset with sstate := .done } : Stream).sstate ≠ .live ∧
    exec .sfin State.reset = .next (nextOf (exec .sfin State.reset)) ∧
    (nextOf (exec .sfin State.reset)).err = .stream :=
  ⟨accepts_reset, by decide, by decide, by decide, rfl, by decide⟩

theorem witness_AdapterError :
    State.reset.Accepts ∧ (∀ i ∈ [Instr.awrite .little .unaligned, .afin], i.needsAdapter = true) ∧
    State.reset.avalid = false ∧ (nextOf (exec .afin State.reset)).err = .adapt ∧
    step { State.reset with avalid := true } = .next { State.reset with avalid := true } ∧
    (nextOf (step (withPort (issue .ainit)))).avalid = true :=
  ⟨accepts_reset, by decide, by decide, by decide, rfl, by decide⟩

theorem witness_EngineError :
    simdCore.Accepts ∧ (∀ i ∈ [Instr.hash0 .little .aligned, .awrite .big .unaligned], i.dispatched = true) ∧
    { simdCore with avalid := true }.avalid = true ∧ simdCore.resolved.present = false ∧
    (nextOf (exec (.hash0 .little .aligned) simdCore)).err = .engine ∧ State.reset.cfg.capReset.getLsbD 1 = false ∧
    State.reset.err ≠ .engine :=
  ⟨⟨by decide, by decide, by decide⟩, by decide, by decide, by decide, by decide, by decide, by decide⟩

theorem witness_reset_inv : State.reset.Inv :=
  ⟨by decide, by decide, by decide, by decide, by decide, by decide, by decide, by decide, by decide, by decide⟩

theorem witness_AlignError :
    (ready 0x1004 0).Accepts ∧ (ready 0x1001 40).Accepts ∧
    (ready 0x1004 0).reads (.hash2 .little .aligned) = some (8, .aligned) ∧ (ready 0x1004 0).addr.toNat % 8 ≠ 0 ∧
    (ready 0x1001 40).reads (.hash1 .big .aligned) = some (4, .aligned) ∧ (ready 0x1001 40).addr.toNat % 4 ≠ 0 ∧
    (ready 0x1001 40).reads (.hash0 .big .aligned) = some (8, .aligned) ∧ (ready 0x1001 40).resolved.present = true ∧
    (nextOf (exec (.hash2 .little .aligned) (ready 0x1004 0))).err = .align :=
  ⟨accepts_ready _ _, accepts_ready _ _, by decide, by decide, by decide, by decide, by decide, by decide, by decide⟩

/-- A core whose input ends `n - 16` bytes past the address space (R294). -/
def edgeCore (n : Nat) : State :=
  { State.reset with addr := 0xFFFFFFFFFFFFFFF0#64, len := .ofNat 64 n, stream := liveStream, avalid := true }

theorem witness_RangeError :
    (edgeCore 17).Accepts ∧ (edgeCore 17).reads .supd = some (1, .unaligned) ∧ (edgeCore 17).stream.sstate = .live ∧
    (edgeCore 17).avalid = true ∧ (edgeCore 17).resolved.present = true ∧ (edgeCore 17).Aligned 8 .aligned ∧
    2 ^ 64 < (edgeCore 17).addr.toNat + (edgeCore 17).len.toNat ∧ (nextOf (exec .supd (edgeCore 17))).err = .range ∧
    (edgeCore 16).InRange :=
  ⟨⟨by decide, by decide, by decide⟩, by decide, by decide, by decide, by decide, by decide, by decide, by decide, by decide⟩

theorem accepts_hole : holeCore.Accepts := ⟨by decide, by decide, by decide⟩

theorem witness_BusError :
    holeCore.Accepts ∧
    (∀ i ∈ [Instr.hash0 .little .aligned, .hash1 .big .aligned, .hash2 .little .unaligned, .hash3 .aligned, .hash3x .unaligned, .supd,
        .awrite .big .aligned],
      holeCore.violation i = none ∧ (holeCore.reads i).isSome = true) ∧
    holeCore.reads (.hash1 .big .aligned) = some (4, .aligned) ∧ holeCore.reads .supd = some (1, .unaligned) ∧
    16 < holeCore.len.toNat ∧ holeCore.mem.mapped (holeCore.inputAddr 16) = false ∧
    ∀ k < 16, holeCore.mem.mapped (holeCore.inputAddr k) = true :=
  ⟨accepts_hole, by decide, by decide, by decide, by decide, by decide, by decide⟩

/-- A core whose input of `n` bytes lies in an unmapped page. -/
def dark (base n : Nat) : State := { ready base n with mem := (memAt base (ramp n)).unmapPage (base / pageSize) }

/-- An input shorter than a word in an unmapped page: at the smallest page offset that takes the underside read, at the largest
that does not, and an input of exactly a word. -/
theorem witness_BusError_underside :
    (∀ s ∈ [dark 0x1008 7, dark 0x1007 7, dark 0x1008 8],
      s.violation (.hash2 .little .unaligned) = none ∧
      s.reads (.hash2 .little .unaligned) = some (8, .unaligned) ∧ s.mem.mapped (s.inputAddr 0) = false) ∧
    (dark 0x1008 7).busAddress 8 .unaligned 0 = 0x1007 ∧ (dark 0x1007 7).busAddress 8 .unaligned 0 = 0x1007 ∧
    (dark 0x1008 8).busAddress 8 .unaligned 0 = 0x1008 ∧ (dark 0x1008 7).busAddress 8 .aligned 0 = 0x1008 := by decide

theorem witness_BusError_underside_accepts : (dark 0x1008 7).Accepts ∧ (dark 0x1007 7).Accepts ∧ (dark 0x1008 8).Accepts :=
  ⟨⟨by decide, by decide, by decide⟩, ⟨by decide, by decide, by decide⟩, ⟨by decide, by decide, by decide⟩⟩

/-- R84 and R295: the underside read of 3 bytes at 0x1100 starts at 0x10FB. -/
theorem test_bus_underside :
    (nextOf (exec (.hash2 .little .unaligned) (dark 0x1100 3))).errInfo = 0x10FB#64 ∧
    (nextOf (exec (.hash2 .little .aligned) (dark 0x1100 3))).errInfo = 0x1100#64 := by decide

theorem witness_BusErrorPoisons :
    holeCore.Accepts ∧ holeCore.stream.sstate = .live ∧ holeCore.InRange ∧ ¬ holeCore.InputMapped :=
  ⟨accepts_hole, by decide, by decide, fun h => by
    have h16 := h 16 (by decide)
    revert h16
    decide⟩

theorem witness_PriorityOrder :
    (withPort (.wr 0#5 0x15#64)).inbox = [.port (encodeTransaction (.wr 0#5 0x15#64))] ∧
    decodeTransaction (encodeTransaction (.wr 0#5 0x15#64)) = .wr 0#5 0x15#64 := by decide

theorem witness_NopResult_ClrerrResult :
    pendingCore.halt = false ∧ pendingCore.stream.fill.toNat < 32 ∧ haltedCore.halt = true := by decide

/-- An input of 40 bytes, aligned for both word sizes, in a core whose dispatcher has not resolved. -/
theorem witness_one_shot_results :
    (ready 0x1000 40).Accepts ∧ (ready 0x1000 40).resolved.present = true ∧
    (ready 0x1000 40).Aligned (ready 0x1000 40).resolved.wordSize .aligned ∧ (ready 0x1000 40).Aligned 4 .aligned ∧
    (ready 0x1000 40).Aligned 8 .aligned ∧ (ready 0x1000 40).InRange ∧ (ready 0x1000 40).InputMapped :=
  ⟨accepts_ready _ _, by decide, by decide, by decide, by decide, by decide, by decide⟩

/-- An input that ends at the last byte of the address space (R294). -/
theorem witness_one_shot_results_edge :
    (edgeCore 16).Accepts ∧ (edgeCore 16).Aligned 8 .aligned ∧ (edgeCore 16).InRange ∧ (edgeCore 16).InputMapped ∧
    (edgeCore 16).avalid = true ∧ (edgeCore 16).resolved.present = true :=
  ⟨⟨by decide, by decide, by decide⟩, by decide, by decide, by decide, by decide, by decide⟩

theorem witness_SinitResult_AinitResult : State.reset.Accepts := accepts_reset

theorem witness_streaming_results :
    midStream.Accepts ∧ midStream.stream.sstate = .live ∧ midStream.InRange ∧ midStream.InputMapped :=
  ⟨⟨by decide, by decide, by decide⟩, by decide, by decide, by decide⟩

theorem witness_AwriteResult_AfinResult :
    { ready 0x1000 13 with avalid := true }.Accepts ∧ { ready 0x1000 13 with avalid := true }.avalid = true ∧
    { ready 0x1000 13 with avalid := true }.resolved.present = true ∧
    { ready 0x1000 13 with avalid := true }.InRange ∧ { ready 0x1000 13 with avalid := true }.InputMapped :=
  ⟨⟨by decide, by decide, by decide⟩, by decide, by decide, by decide, by decide⟩

/-- Two memories that differ next to the input, in bytes and in mapping, and agree on it. -/
theorem witness_DependsOnInputOnly :
    let m := (((ready 0x1000 13).mem.store 0x100D 0xFF#8).store 0x1FFF 0xFF#8).unmapPage 2
    ∀ j < (ready 0x1000 13).len.toNat,
      m.byte ((ready 0x1000 13).inputAddr j) = (ready 0x1000 13).mem.byte ((ready 0x1000 13).inputAddr j) ∧
      m.mapped ((ready 0x1000 13).inputAddr j) = (ready 0x1000 13).mem.mapped ((ready 0x1000 13).inputAddr j) := by decide

theorem witness_DisciplineIndependent :
    (ready 0x1008 13).reads (.hash3 .unaligned) = some (8, .unaligned) ∧ (ready 0x1008 13).addr.toNat % 8 = 0 ∧
    (ready 0x1008 13).InputMapped ∧
    (uTail (memAt 0x2FF0 tailBytes) 8 .little .unaligned 0x2FF5 3).toOption = some 0x332211 ∧
    (uTail (memAt 0x2FF0 tailBytes) 8 .little .aligned 0x2FF5 3).toOption = some 0x332211 := by decide

theorem witness_CommandFrame : exec .sinit State.reset = .next (nextOf (exec .sinit State.reset)) := rfl

theorem witness_ResolvedOnce :
    (withPort (issue (.hash0 .little .unaligned))).due ≠ .event .reset ∧
    (withPort (issue (.hash0 .little .unaligned))).sel = none ∧
    { withPort (issue (.hash0 .little .unaligned)) with sel := some .gen1 }.sel = some .gen1 := by decide

theorem witness_ResolvedOnce_step :
    step (withPort (issue (.hash0 .little .unaligned))) =
      .next (nextOf (step (withPort (issue (.hash0 .little .unaligned))))) := rfl

theorem witness_StreamLifecycle :
    (nextOf (exec .sinit State.reset)).stream.sstate ≠ State.reset.stream.sstate ∧
    (nextOf (exec .sfin midStream)).stream.sstate ≠ midStream.stream.sstate ∧
    (nextOf (exec .supd holeCore)).stream.sstate ≠ holeCore.stream.sstate := by decide

theorem witness_StepKeepsStream :
    (nextOf (step { midStream with inbox := [.port (encodeTransaction (issue .supd))] })).stream.sstate = .live ∧
    { midStream with inbox := [.port (encodeTransaction (issue .supd))] }.due = .command .supd ∧
    (nextOf (step { midStream with inbox := [.port (encodeTransaction (issue .sinit))] })).stream.sstate = .live ∧
    (nextOf (step { midStream with inbox := [.store 5#64 7#8] })).stream.sstate = .live := by decide

theorem witness_ChunkIndependent_StreamDigests_StepKeepsStream :
    midStream.Accepts ∧ midStream.stream.Holds midStream.cfg sx sy (ramp 13) ∧ midStream.InRange ∧ midStream.InputMapped :=
  ⟨⟨by decide, by decide, by decide⟩, ⟨by decide, by decide, by decide, by decide, by decide⟩, by decide, by decide⟩

/-- The three strategies of R133: aligned, underside at the smallest page offset that takes it, forward at the largest. -/
theorem witness_TailReadValue :
    (0x2008 % 8 = 0 ∧ readsForward 8 .aligned 0x2008 = true) ∧
    (readsForward 8 .unaligned 0x2008 = false ∧ readsForward 8 .unaligned 0x2007 = true) ∧
    (readsForward 4 .unaligned 0x2004 = false ∧ readsForward 4 .unaligned 0x2003 = true) ∧
    ∀ i < 8, (Memory.empty.unmapPage 3).mapped (0x2FF8 + i) = true := by decide

theorem witness_BufferTail : 24 ∈ [0, 8, 16, 24] ∧ 1 ≤ 8 ∧ 8 ≤ 8 := by decide

theorem witness_RotateBits : 63 < 64 ∧ 0 < 64 ∧ 31 < 32 := by decide

theorem witness_WidenXor_PairUpdate : (1#64 ≠ 0#64) ∧ 0xFFFFFFFFFFFFFFFF#64 + 1#64 = 0#64 := by decide

theorem witness_CanonicalMemory : (memAt 0x1000 (ramp 3)).wf ∧ (⟨[(0x1001, 1#8), (0x1002, 2#8)], [], [], 0⟩ : Memory).wf ∧
    ∀ a < 2 ^ 64, (memAt 0x1000 (ramp 3)).held a = (⟨[(0x1001, 1#8), (0x1002, 2#8)], [], [], 0⟩ : Memory).held a :=
  ⟨by decide, by decide, fun _ _ => rfl⟩

theorem witness_HostMemory :
    { State.reset with inbox := [.store 5#64 0#8] }.inbox = [.store 5#64 0#8] ∧
    { State.reset with inbox := [.mapPage 5#52] }.inbox = [.mapPage 5#52] ∧
    { State.reset with inbox := [.unmapPage 5#52] }.inbox = [.unmapPage 5#52] ∧
    { State.reset with inbox := [.race [5#52, 7#52]] }.inbox = [.race [5#52, 7#52]] ∧
    0x5FFF / pageSize ∈ (Memory.empty.race [5, 7]).racing ∧ 0x6000 / pageSize ∉ (Memory.empty.race [5, 7]).racing := by
  decide

theorem witness_StepKeepsInv :
    State.reset.Inv ∧ step State.reset = .next State.reset := ⟨witness_reset_inv, rfl⟩

end Sys2Proof.Tests
end

section
/-! PROOFS. What a transaction on the host port does (spec/30_encoding.md R101, spec/10_state.md R40, R42), what no command
writes (R36), and the statements about the host-visible registers that rest on them. -/

namespace Sys2Proof.Machine

open Sys2Proof

/-! ### Transactions -/

theorem State.retire_of_inbox {s : State} {ev : HostEvent} {rest : List HostEvent} (h : s.inbox = ev :: rest) :
    s.retire = { s with inbox := rest, reply := none } := by
  simp [State.retire, h]

theorem State.due_of_wr {s : State} {p : BitVec 70} {rest : List HostEvent} {idx : BitVec 5} {v : U64}
    (hp : s.inbox = .port p :: rest) (hd : decodeTransaction p = .wr idx v) (hi : idx ≠ 0x00#5) :
    s.due = .write idx v := by
  simp [State.due, hp, hd, indexOfReg, hi]

theorem State.due_of_wr_cmd {s : State} {p : BitVec 70} {rest : List HostEvent} {v : U64}
    (hp : s.inbox = .port p :: rest) (hd : decodeTransaction p = .wr 0x00#5 v) :
    (∃ i, s.due = .command i) ∨ s.due = .illegal v := by
  cases h : decode v with
  | ok i => exact .inl ⟨i, by simp [State.due, hp, hd, indexOfReg, h]⟩
  | error e => exact .inr (by simp [State.due, hp, hd, indexOfReg, h])

theorem State.due_of_rd {s : State} {p : BitVec 70} {rest : List HostEvent} {idx : BitVec 5}
    (hp : s.inbox = .port p :: rest) (hd : decodeTransaction p = .rd idx) : s.due = .read idx := by
  simp [State.due, hp, hd]

theorem step_of_due_write {s : State} {idx : BitVec 5} {v : U64} (h : s.due = .write idx v) :
    step s = .next (writeRegister idx v s) := by
  simp [step, h]

theorem step_of_due_read {s : State} {idx : BitVec 5} (h : s.due = .read idx) :
    step s = .next (readRegister idx s) := by
  simp [step, h]

/-! ### The halted core ignores every write (spec/60_exceptions.md R298) -/

theorem illegalCommand_halted (v : U64) {s : State} (h : s.halt = true) : illegalCommand v s = s.retire := by
  simp [illegalCommand, commandWrite, h]

theorem exec_halted (i : Instr) {s : State} (h : s.halt = true) : exec i s = .next s.retire := by
  rw [exec_eq, runCommand_halted h]

theorem writeRegister_halted (idx : BitVec 5) (v : U64) {s : State} (h : s.halt = true) :
    writeRegister idx v s = s.retire := by
  simp [writeRegister, h]

/-- A `WR` of any index, that of `CMD` included. -/
theorem step_wr_halted {s : State} {p : BitVec 70} {rest : List HostEvent} {idx : BitVec 5} {v : U64}
    (hp : s.inbox = .port p :: rest) (hd : decodeTransaction p = .wr idx v) (h : s.halt = true) :
    step s = .next s.retire := by
  by_cases hi : idx = 0x00#5
  · subst hi
    obtain ⟨i, hdue⟩ | hdue := State.due_of_wr_cmd hp hd
    · simp [step, hdue, exec_halted i h]
    · simp [step, hdue, illegalCommand_halted v h]
  · rw [step_of_due_write (State.due_of_wr hp hd hi), writeRegister_halted idx v h]

/-! ### Reads and writes of a register -/

theorem readRegister_of_reg {idx : BitVec 5} {r : Reg} (h : regOfIndex idx = some r) (s : State) :
    readRegister idx s = s.retire.answer (regValue s.retire r) := by
  simp [readRegister, h]

theorem readRegister_of_reserved {idx : BitVec 5} (h : regOfIndex idx = none) (s : State) :
    readRegister idx s = (s.retire.badAccess idx).answer 0#64 := by
  simp [readRegister, h]

/-- The reserved indices (R40). -/
theorem regOfIndex_eq_none_iff :
    ∀ idx : BitVec 5, regOfIndex idx = none ↔ idx.toNat = 6 ∨ idx.toNat = 7 ∨ 14 ≤ idx.toNat := by
  decide

theorem writeRegister_seedX (v : U64) {s : State} (h : s.halt = false) :
    writeRegister 0x08#5 v s = { s.retire with seedX := v } := by
  simp [writeRegister, h, regOfIndex]

theorem writeRegister_seedY (v : U64) {s : State} (h : s.halt = false) :
    writeRegister 0x09#5 v s = { s.retire with seedY := v } := by
  simp [writeRegister, h, regOfIndex]

theorem writeRegister_addr (v : U64) {s : State} (h : s.halt = false) :
    writeRegister 0x0A#5 v s = { s.retire with addr := v } := by
  simp [writeRegister, h, regOfIndex]

theorem writeRegister_len (v : U64) {s : State} (h : s.halt = false) :
    writeRegister 0x0B#5 v s = { s.retire with len := v } := by
  simp [writeRegister, h, regOfIndex]

/-- The read-only and the reserved indices: all but 0, which is `CMD`, and 8 to 11, the operand registers (R40, R42). -/
theorem writeRegister_bad {idx : BitVec 5} (v : U64) {s : State} (h : s.halt = false)
    (hi : idx.toNat ≤ 7 ∨ 12 ≤ idx.toNat) : writeRegister idx v s = s.retire.badAccess idx := by
  obtain ⟨hh, -⟩ | ⟨-, ⟨rfl, -⟩ | ⟨rfl, -⟩ | ⟨rfl, -⟩ | ⟨rfl, -⟩ | ⟨-, -, -, -, hw⟩⟩ := writeRegister_cases idx v s
  case inr.inr.inr.inr.inr => exact hw
  case inl => simp [h] at hh
  all_goals exact absurd hi (by decide)

theorem State.badAccess_of_noError (idx : BitVec 5) {s : State} (h : s.err = .none) :
    s.badAccess idx = { s with err := .reg, errInfo := idx.setWidth 64 } := by
  simp [State.badAccess, h]

theorem State.badAccess_of_pending (idx : BitVec 5) {s : State} (h : s.err ≠ .none) : s.badAccess idx = s := by
  simp [State.badAccess, h]

/-! ### What the body of a command is given and never writes -/

/-- The operand registers (R36) are the same in both states. -/
structure State.SameOperands (s t : State) : Prop where
  seedX : t.seedX = s.seedX
  seedY : t.seedY = s.seedY
  addr : t.addr = s.addr
  len : t.len = s.len

/-- What the body of every command leaves as it finds it: the operand registers (R36), `CMD` and `DONE` as the command write
set them (30_encoding.md R102), `HALT`, `CAP` (R45), the memory (R35), the parameters, and the host port. -/
structure State.SameGiven (s t : State) : Prop extends State.SameOperands s t where
  cmd : t.cmd = s.cmd
  done : t.done = s.done
  halt : t.halt = s.halt
  cap : t.cap = s.cap
  mem : t.mem = s.mem
  cfg : t.cfg = s.cfg
  inbox : t.inbox = s.inbox
  reply : t.reply = s.reply

theorem State.SameOperands.refl (s : State) : s.SameOperands s := ⟨rfl, rfl, rfl, rfl⟩

theorem State.SameGiven.refl (s : State) : s.SameGiven s := ⟨.refl s, rfl, rfl, rfl, rfl, rfl, rfl, rfl, rfl⟩

theorem State.SameGiven.trans {s t u : State} (h : s.SameGiven t) (h' : t.SameGiven u) : s.SameGiven u where
  seedX := h'.seedX.trans h.seedX
  seedY := h'.seedY.trans h.seedY
  addr := h'.addr.trans h.addr
  len := h'.len.trans h.len
  cmd := h'.cmd.trans h.cmd
  done := h'.done.trans h.done
  halt := h'.halt.trans h.halt
  cap := h'.cap.trans h.cap
  mem := h'.mem.trans h.mem
  cfg := h'.cfg.trans h.cfg
  inbox := h'.inbox.trans h.inbox
  reply := h'.reply.trans h.reply

theorem State.sameGiven_withWork (s : State) (w : Work) : s.SameGiven (s.withWork w) :=
  ⟨⟨rfl, rfl, rfl, rfl⟩, rfl, rfl, rfl, rfl, rfl, rfl, rfl, rfl⟩

theorem State.sameGiven_withResult (s : State) (hi lo : U64) : s.SameGiven (s.withResult hi lo) :=
  ⟨⟨rfl, rfl, rfl, rfl⟩, rfl, rfl, rfl, rfl, rfl, rfl, rfl, rfl⟩

theorem State.sameGiven_withStream (s : State) (x : Stream) : s.SameGiven (s.withStream x) :=
  ⟨⟨rfl, rfl, rfl, rfl⟩, rfl, rfl, rfl, rfl, rfl, rfl, rfl, rfl⟩

theorem State.sameGiven_withAstate (s : State) (v : U64) : s.SameGiven (s.withAstate v) :=
  ⟨⟨rfl, rfl, rfl, rfl⟩, rfl, rfl, rfl, rfl, rfl, rfl, rfl, rfl⟩

theorem State.sameGiven_withAdapter (s : State) (v : U64) : s.SameGiven (s.withAdapter v) :=
  ⟨⟨rfl, rfl, rfl, rfl⟩, rfl, rfl, rfl, rfl, rfl, rfl, rfl, rfl⟩

theorem State.sameGiven_clearError (s : State) : s.SameGiven s.clearError :=
  ⟨⟨rfl, rfl, rfl, rfl⟩, rfl, rfl, rfl, rfl, rfl, rfl, rfl, rfl⟩

theorem State.sameGiven_withAbsorbed (s : State) (x : Absorb) : s.SameGiven (s.withAbsorbed x) :=
  ⟨⟨rfl, rfl, rfl, rfl⟩, rfl, rfl, rfl, rfl, rfl, rfl, rfl, rfl⟩

theorem sameGiven_uResolve (s : State) : s.SameGiven (uResolve s).1 := by
  rw [uResolve_eq]
  exact ⟨⟨rfl, rfl, rfl, rfl⟩, rfl, rfl, rfl, rfl, rfl, rfl, rfl, rfl⟩

/-! ### The state a body ends in, completed or not -/

/-- The state in which a part of a command ends, at its end or where it raises an error, satisfies `P`; `state` finds it in a
completed part's answer. -/
def EndsIn {α : Type} (P : State → Prop) (state : α → State) : Except Raise α → Prop
  | .ok x => P (state x)
  | .error r => P r.state

theorem EndsIn.bind {α β : Type} {P : State → Prop} {state : α → State} {state' : β → State} {r : Except Raise α}
    {f : α → Except Raise β} (h : EndsIn P state r) (hf : ∀ x, P (state x) → EndsIn P state' (f x)) :
    EndsIn P state' (r >>= f) := by
  cases r with
  | ok x => exact hf x h
  | error r => exact h

theorem EndsIn.imp {α : Type} {P Q : State → Prop} {state : α → State} {r : Except Raise α} (h : EndsIn P state r)
    (hPQ : ∀ s, P s → Q s) : EndsIn Q state r := by
  cases r with
  | ok x => exact hPQ _ h
  | error r => exact hPQ _ h

theorem endsIn_needLive {P : State → Prop} {s : State} {k : State → Except Raise State} (hs : P s)
    (hk : EndsIn P id (k s)) : EndsIn P id (needLive s k) := by
  obtain ⟨-, h⟩ | ⟨-, h⟩ := needLive_cases s k <;> rw [h]
  · exact hk
  · exact hs

theorem endsIn_needAdapter {P : State → Prop} {s : State} {k : State → Except Raise State} (hs : P s)
    (hk : EndsIn P id (k s)) : EndsIn P id (needAdapter s k) := by
  obtain ⟨-, h⟩ | ⟨-, h⟩ := needAdapter_cases s k <;> rw [h]
  · exact hk
  · exact hs

theorem oneShot_sameGiven (W : Nat) (a : Discipline) (body : Work → Except BusStop Work) (s : State) :
    EndsIn s.SameGiven id (oneShot W a body s) := by
  obtain ⟨-, h⟩ | ⟨-, -, h⟩ | ⟨-, -, ⟨w, -, h⟩ | ⟨x, -, h⟩⟩ := oneShot_cases W a body s <;> rw [h]
  · exact .refl s
  · exact .refl s
  · exact s.sameGiven_withWork w
  · exact s.sameGiven_withWork x.work

/-- A one-shot command: the frame, then the digest of the working bank into the result registers. -/
theorem oneShot_bind_withResult_sameGiven (W : Nat) (a : Discipline) (body : Work → Except BusStop Work) (s : State)
    (hi lo : State → U64) :
    EndsIn s.SameGiven id (oneShot W a body s >>= fun t => .ok (t.withResult (hi t) (lo t))) :=
  (oneShot_sameGiven W a body s).bind fun t ht => ht.trans (t.sameGiven_withResult (hi t) (lo t))

theorem uBody0_sameGiven (impl : Impl) (e : Endian) (a : Discipline) (seed : U64) (s : State) :
    EndsIn s.SameGiven Prod.fst (uBody0 impl e a seed s) := by
  cases impl with
  | gen1 => exact (oneShot_sameGiven _ _ _ s).bind fun _ ht => ht
  | gen2 => exact (oneShot_sameGiven _ _ _ s).bind fun _ ht => ht
  | narrowRound => exact .refl s
  | narrowSimd => exact .refl s
  | wideSimd => exact .refl s

/-- Resolution, then the body it selects. -/
theorem uBody0_uResolve_sameGiven (e : Endian) (a : Discipline) (seed : U64) (s : State) :
    EndsIn s.SameGiven Prod.fst (uBody0 (uResolve s).2 e a seed (uResolve s).1) :=
  (uBody0_sameGiven _ e a seed _).imp fun _ => (sameGiven_uResolve s).trans

theorem hash0Body_sameGiven (e : Endian) (a : Discipline) (s : State) : EndsIn s.SameGiven id (hash0Body e a s) :=
  (uBody0_uResolve_sameGiven e a s.seedX s).bind fun x hx => hx.trans (x.1.sameGiven_withResult 0#64 x.2)

theorem awriteBody_sameGiven (e : Endian) (a : Discipline) (s : State) : EndsIn s.SameGiven id (awriteBody e a s) :=
  endsIn_needAdapter (.refl s)
    ((uBody0_uResolve_sameGiven e a s.astate s).bind fun x hx => hx.trans (x.1.sameGiven_withAstate x.2))

theorem afinBody_sameGiven (s : State) : EndsIn s.SameGiven id (afinBody s) :=
  endsIn_needAdapter (.refl s) (s.sameGiven_withResult 0#64 s.astate)

theorem supdBody_sameGiven (s : State) : EndsIn s.SameGiven id (supdBody s) := by
  refine endsIn_needLive (.refl s) ?_
  have hpos := s.sameGiven_withWork { s.work with pos := s.addr }
  dsimp only
  split
  · exact .refl s
  · split
    · exact hpos.trans (State.sameGiven_withAbsorbed _ _)
    · exact hpos.trans (State.sameGiven_withAbsorbed _ _)

theorem sfinBody_sameGiven (s : State) : EndsIn s.SameGiven id (sfinBody s) :=
  endsIn_needLive (.refl s) ((s.sameGiven_withAbsorbed _).trans (State.sameGiven_withResult _ _ _))

theorem sfinxBody_sameGiven (s : State) : EndsIn s.SameGiven id (sfinxBody s) :=
  endsIn_needLive (.refl s) ((s.sameGiven_withAbsorbed _).trans (State.sameGiven_withResult _ _ _))

/-- Every command is one frame around a body that writes nothing of what it is given. -/
theorem exec_eq_runCommand (i : Instr) (s : State) :
    ∃ body : State → Except Raise State,
      exec i s = .next (runCommand i body s) ∧ ∀ u : State, EndsIn u.SameGiven id (body u) := by
  refine ⟨_, exec_eq i s, fun u => ?_⟩
  cases i with
  | nop => exact .refl u
  | clrerr => exact u.sameGiven_clearError
  | hash0 e a => exact hash0Body_sameGiven e a u
  | hash1 e a => exact oneShot_bind_withResult_sameGiven _ _ _ u _ _
  | hash2 e a => exact oneShot_bind_withResult_sameGiven _ _ _ u _ _
  | hash3 a => exact oneShot_bind_withResult_sameGiven _ _ _ u _ _
  | hash3x a => exact oneShot_bind_withResult_sameGiven _ _ _ u _ _
  | sinit => exact u.sameGiven_withStream _
  | supd => exact supdBody_sameGiven u
  | sfin => exact sfinBody_sameGiven u
  | sfinx => exact sfinxBody_sameGiven u
  | ainit => exact u.sameGiven_withAdapter u.seedX
  | awrite e a => exact awriteBody_sameGiven e a u
  | afin => exact afinBody_sameGiven u

/-! ### Only the host writes the operand registers (R36) -/

/-- The four ways a command write goes: ignored, fatal, refused, or on to its command. -/
theorem commandWrite_sameOperands {w : BitVec 32} {pendingOk : Bool} {go : State → State} {s : State}
    (hgo : ∀ u : State, u.SameOperands (go u)) : s.SameOperands (commandWrite w pendingOk go s) := by
  obtain ⟨-, h⟩ | ⟨-, -, h⟩ | ⟨-, -, -, -, h⟩ | ⟨-, -, -, h⟩ := commandWrite_cases w pendingOk go s <;> rw [h]
  · exact ⟨rfl, rfl, rfl, rfl⟩
  · exact ⟨rfl, rfl, rfl, rfl⟩
  · exact ⟨rfl, rfl, rfl, rfl⟩
  · obtain ⟨hx, hy, ha, hl⟩ := hgo (s.retire.startCommand w)
    exact ⟨hx, hy, ha, hl⟩

theorem settle_sameOperands {s : State} {r : Except Raise State} (h : EndsIn s.SameOperands id r) :
    s.SameOperands (settle r) := by
  cases r with
  | ok t =>
    obtain ⟨hx, hy, ha, hl⟩ := h
    exact ⟨hx, hy, ha, hl⟩
  | error r =>
    obtain ⟨hx, hy, ha, hl⟩ := h
    exact ⟨hx, hy, ha, hl⟩

theorem exec_sameOperands {i : Instr} {s t : State} (h : exec i s = .next t) : s.SameOperands t := by
  obtain ⟨body, hexec, hbody⟩ := exec_eq_runCommand i s
  obtain rfl : runCommand i body s = t := by simpa [hexec] using h
  exact commandWrite_sameOperands fun u => settle_sameOperands ((hbody u).imp fun _ => State.SameGiven.toSameOperands)

theorem illegalCommand_sameOperands (v : U64) (s : State) : s.SameOperands (illegalCommand v s) :=
  commandWrite_sameOperands fun _ => ⟨rfl, rfl, rfl, rfl⟩

theorem readRegister_sameOperands (idx : BitVec 5) (s : State) : s.SameOperands (readRegister idx s) := by
  cases h : regOfIndex idx with
  | some r => rw [readRegister_of_reg h]; exact ⟨rfl, rfl, rfl, rfl⟩
  | none => rw [readRegister_of_reserved h]; exact ⟨rfl, rfl, rfl, rfl⟩

theorem environment_sameOperands {ev : HostEvent} (h : ev ≠ .reset) (s : State) : s.SameOperands (environment ev s) := by
  cases ev with
  | reset => exact absurd rfl h
  | port _ | store _ _ | mapPage _ | unmapPage _ | race _ => exact ⟨rfl, rfl, rfl, rfl⟩

/-- Each operand register is as before the step, or the step was the host's write of it. -/
structure State.OperandsByHost (s t : State) : Prop where
  seedX : t.seedX = s.seedX ∨ s.due = .write 0x08#5 t.seedX
  seedY : t.seedY = s.seedY ∨ s.due = .write 0x09#5 t.seedY
  addr : t.addr = s.addr ∨ s.due = .write 0x0A#5 t.addr
  len : t.len = s.len ∨ s.due = .write 0x0B#5 t.len

theorem State.SameOperands.byHost {s t : State} (h : s.SameOperands t) : s.OperandsByHost t :=
  ⟨.inl h.seedX, .inl h.seedY, .inl h.addr, .inl h.len⟩

theorem writeRegister_operandsByHost {idx : BitVec 5} {v : U64} {s : State} (hd : s.due = .write idx v) :
    s.OperandsByHost (writeRegister idx v s) := by
  obtain ⟨-, h⟩ | ⟨-, ⟨rfl, h⟩ | ⟨rfl, h⟩ | ⟨rfl, h⟩ | ⟨rfl, h⟩ | ⟨-, -, -, -, h⟩⟩ := writeRegister_cases idx v s <;>
    rw [h]
  · exact State.SameOperands.byHost ⟨rfl, rfl, rfl, rfl⟩
  · exact ⟨.inr hd, .inl rfl, .inl rfl, .inl rfl⟩
  · exact ⟨.inl rfl, .inr hd, .inl rfl, .inl rfl⟩
  · exact ⟨.inl rfl, .inl rfl, .inr hd, .inl rfl⟩
  · exact ⟨.inl rfl, .inl rfl, .inl rfl, .inr hd⟩
  · exact State.SameOperands.byHost ⟨rfl, rfl, rfl, rfl⟩

theorem step_operandsByHost {s t : State} (h : step s = .next t) (hreset : s.due ≠ .event .reset) :
    s.OperandsByHost t := by
  obtain ⟨-, hs⟩ | ⟨i, -, hs⟩ | ⟨v, -, hs⟩ | ⟨idx, v, hd, hs⟩ | ⟨idx, -, hs⟩ | ⟨ev, hd, hs⟩ := step_cases s <;>
    rw [hs] at h
  case inr.inl => exact (exec_sameOperands h).byHost
  all_goals
    injection h with h
    subst h
  · exact (State.SameOperands.refl s).byHost
  · exact (illegalCommand_sameOperands v s).byHost
  · exact writeRegister_operandsByHost hd
  · exact (readRegister_sameOperands idx s).byHost
  · exact (environment_sameOperands (fun he => hreset (by rw [hd, he])) s).byHost

/-! ### The statements -/

/-- Settles O9: every value R56 specifies is the literal the reset state holds, and the words are those of flags all clear. -/
theorem resetValues : Obligations.ResetValues := by
  unfold Obligations.ResetValues
  decide

/-- The host's write of each operand register, while the core runs. -/
theorem step_wr_operand {s : State} {p : BitVec 70} {rest : List HostEvent} {idx : BitVec 5} {v : U64}
    (hp : s.inbox = .port p :: rest) (hd : decodeTransaction p = .wr idx v) (hh : s.halt = false) :
    (idx = 0x08#5 → step s = .next { s with inbox := rest, reply := none, seedX := v }) ∧
    (idx = 0x09#5 → step s = .next { s with inbox := rest, reply := none, seedY := v }) ∧
    (idx = 0x0A#5 → step s = .next { s with inbox := rest, reply := none, addr := v }) ∧
    (idx = 0x0B#5 → step s = .next { s with inbox := rest, reply := none, len := v }) := by
  have hstep (hi : idx ≠ 0x00#5) : step s = .next (writeRegister idx v s) :=
    step_of_due_write (State.due_of_wr hp hd hi)
  refine ⟨?_, ?_, ?_, ?_⟩ <;> rintro rfl <;> rw [hstep (by decide)]
  · rw [writeRegister_seedX v hh, State.retire_of_inbox hp]
  · rw [writeRegister_seedY v hh, State.retire_of_inbox hp]
  · rw [writeRegister_addr v hh, State.retire_of_inbox hp]
  · rw [writeRegister_len v hh, State.retire_of_inbox hp]

theorem step_rd_of_reg {s : State} {p : BitVec 70} {rest : List HostEvent} {idx : BitVec 5} {r : Reg}
    (hp : s.inbox = .port p :: rest) (hd : decodeTransaction p = .rd idx) (hr : regOfIndex idx = some r) :
    step s = .next { s with inbox := rest, reply := some (regValue s r) } := by
  have hv : regValue s.retire r = regValue s r := by cases r <;> rfl
  rw [step_of_due_read (State.due_of_rd hp hd), readRegister_of_reg hr, hv, State.retire_of_inbox hp, State.answer]

/-- Settles O14: writes and reads of the four registers go through the register map, and every other step is shown to leave
them by what its kind of step can do (`step_operandsByHost`). -/
theorem operandRegisters : Obligations.OperandRegisters := by
  unfold Obligations.OperandRegisters
  refine ⟨fun s p rest idx v hp hd hh => step_wr_operand hp hd hh, fun s p rest idx hp hd => ⟨?_, ?_, ?_, ?_⟩,
    fun s t h hreset => ?_, rfl, rfl, rfl, rfl⟩
  · rintro rfl; exact step_rd_of_reg (r := .seedX) hp hd rfl
  · rintro rfl; exact step_rd_of_reg (r := .seedY) hp hd rfl
  · rintro rfl; exact step_rd_of_reg (r := .addr) hp hd rfl
  · rintro rfl; exact step_rd_of_reg (r := .len) hp hd rfl
  · obtain ⟨hx, hy, ha, hl⟩ := step_operandsByHost h hreset
    exact ⟨hx, hy, ha, hl⟩

theorem step_wr_bad {s : State} {p : BitVec 70} {rest : List HostEvent} {idx : BitVec 5} {v : U64}
    (hp : s.inbox = .port p :: rest) (hd : decodeTransaction p = .wr idx v) (hh : s.halt = false)
    (hi : 1 ≤ idx.toNat ∧ idx.toNat ≤ 7 ∨ 12 ≤ idx.toNat) : step s = .next (s.retire.badAccess idx) := by
  have h0 : idx ≠ 0x00#5 := by
    rintro rfl
    exact absurd hi (by decide)
  rw [step_of_due_write (State.due_of_wr hp hd h0), writeRegister_bad v hh (by omega)]

theorem step_rd_reserved {s : State} {p : BitVec 70} {rest : List HostEvent} {idx : BitVec 5}
    (hp : s.inbox = .port p :: rest) (hd : decodeTransaction p = .rd idx)
    (hi : idx.toNat = 6 ∨ idx.toNat = 7 ∨ 14 ≤ idx.toNat) :
    step s = .next ((s.retire.badAccess idx).answer 0#64) := by
  rw [step_of_due_read (State.due_of_rd hp hd), readRegister_of_reserved ((regOfIndex_eq_none_iff idx).2 hi)]

/-- Settles O15: each bad access is `State.badAccess`, by cases on whether an error is pending, and a halted core takes the
event and no more. -/
theorem badRegisterAccess : Obligations.BadRegisterAccess := by
  unfold Obligations.BadRegisterAccess
  refine ⟨fun s p rest idx v hp hd hh hi => ⟨fun he => ?_, fun he => ?_⟩,
    fun s p rest idx hp hd hi => ⟨fun he => ?_, fun he => ?_⟩, fun s p rest idx v hp hd hh => ?_⟩
  · rw [step_wr_bad hp hd hh hi, State.badAccess_of_noError idx (s := s.retire) he, State.retire_of_inbox hp]
  · rw [step_wr_bad hp hd hh hi, State.badAccess_of_pending idx (s := s.retire) he, State.retire_of_inbox hp]
  · rw [step_rd_reserved hp hd hi, State.badAccess_of_noError idx (s := s.retire) he, State.retire_of_inbox hp,
      State.answer]
  · rw [step_rd_reserved hp hd hi, State.badAccess_of_pending idx (s := s.retire) he, State.retire_of_inbox hp,
      State.answer]
  · rw [step_wr_halted hp hd hh, State.retire_of_inbox hp]

end Sys2Proof.Machine
end

section
/-! PROOFS. Little-endian values (spec/00_scope.md R16) and the reads of the carry buffer (spec/40_memory_unit.md R138,
R139): masking the full word with `2^(8r) - 1` keeps its first `r` bytes. -/

namespace Sys2Proof.Machine

open Sys2Proof

/-! ### Little-endian values -/

theorem leValue_lt (bs : List Byte) : leValue bs < 256 ^ bs.length := by
  induction bs with
  | nil => simp [leValue]
  | cons b rest ih =>
    rw [leValue, List.length_cons, pow_succ']
    have hb : b.toNat < 256 := b.isLt
    omega

theorem leValue_lt_of_length_le {bs : List Byte} {n : Nat} (h : bs.length ≤ n) : leValue bs < 256 ^ n :=
  (leValue_lt bs).trans_le (Nat.pow_le_pow_right (by decide) h)

/-- The low `r` bytes of a value come first in its little-endian byte list. -/
theorem leValue_take (bs : List Byte) (r : Nat) : leValue (bs.take r) = leValue bs % 256 ^ r := by
  induction bs generalizing r with
  | nil => simp [leValue]
  | cons b rest ih =>
    cases r with
    | zero => simp [leValue, Nat.mod_one]
    | succ r =>
      have hb : b.toNat < 256 := b.isLt
      have hlow : (b.toNat + 256 * leValue rest) % 256 = b.toNat := by omega
      have hhigh : (b.toNat + 256 * leValue rest) / 256 = leValue rest := by omega
      rw [List.take_succ_cons, leValue, leValue, ih, pow_succ', Nat.mod_mul, hlow, hhigh]

/-- The mask of the tail reads (R133, R139) keeps the first `r` bytes. -/
theorem leValue_and_mask (bs : List Byte) (r : Nat) : leValue bs &&& (2 ^ (8 * r) - 1) = leValue (bs.take r) := by
  rw [Nat.and_two_pow_sub_one_eq_mod, pow_mul, leValue_take]
  rfl

/-! ### Reads of the carry buffer -/

theorem length_bufRead_le (buf : Vector Byte bufSize) (i n : Nat) : (bufRead buf i n).length ≤ n :=
  List.length_take_le _ _

theorem take_bufRead (buf : Vector Byte bufSize) (i : Nat) {r n : Nat} (h : r ≤ n) :
    (bufRead buf i n).take r = bufRead buf i r := by
  rw [bufRead, bufRead, List.take_take, Nat.min_eq_left h]

theorem leValue_bufRead_lt (buf : Vector Byte bufSize) (i n : Nat) : leValue (bufRead buf i n) < 256 ^ n :=
  leValue_lt_of_length_le (length_bufRead_le buf i n)

/-- At most eight bytes of the buffer fit a word. -/
theorem toNat_ofNat_leValue_bufRead (buf : Vector Byte bufSize) (i : Nat) {r : Nat} (h : r ≤ 8) :
    (BitVec.ofNat 64 (leValue (bufRead buf i r))).toNat = leValue (bufRead buf i r) := by
  have hlt : leValue (bufRead buf i r) < 2 ^ 64 :=
    leValue_lt_of_length_le (n := 8) ((length_bufRead_le buf i r).trans h)
  rw [BitVec.toNat_ofNat, Nat.mod_eq_of_lt hlt]

theorem toNat_uBufFetch (buf : Vector Byte bufSize) (i : Nat) :
    (uBufFetch buf i).toNat = leValue (bufRead buf i 8) :=
  toNat_ofNat_leValue_bufRead buf i le_rfl

/-- The stale bytes above `r` never reach the tail read (R51, R139). -/
theorem toNat_uBufTail (buf : Vector Byte bufSize) (i : Nat) {r : Nat} (h : r ≤ 8) :
    (uBufTail buf i r).toNat = leValue (bufRead buf i r) := by
  rw [uBufTail, leValue_and_mask, take_bufRead buf i h, toNat_ofNat_leValue_bufRead buf i h]

/-- Settles O51: the mask of the tail read is a truncation of the byte list, and the value of the `r` bytes left is below
`256^r`, so it fits the word. -/
theorem bufferTail : Obligations.BufferTail := by
  unfold Obligations.BufferTail
  intro buf i r _ _ hr
  have htail : (uBufTail buf i r).toNat = leValue (bufRead buf i r) := toNat_uBufTail buf i hr
  exact ⟨htail, htail ▸ leValue_bufRead_lt buf i r, toNat_uBufFetch buf i⟩

end Sys2Proof.Machine
end

section
/-! PROOFS. The mixing datapath (spec/41_mixing_primitives.md): the two halves of the exact product, the widening xor (R154)
and the 64-bit pair update (R155). -/

namespace Sys2Proof.Machine

open Sys2Proof

/-! ### The exact product and its halves -/

/-- The product is exact: two 64-bit words never overflow 128 bits. -/
@[simp] theorem toNat_wide64 (v p : U64) : (wide64 v p).toNat = v.toNat * p.toNat := by
  have hlt : v.toNat * p.toNat < 2 ^ 128 := BitVec.toNat_mul_toNat_lt
  rw [wide64, BitVec.toNat_mul, BitVec.toNat_setWidth_of_le (by decide), BitVec.toNat_setWidth_of_le (by decide),
    Nat.mod_eq_of_lt hlt]

@[simp] theorem toNat_lo64 (q : U128) : (lo64 q).toNat = q.toNat % 2 ^ 64 := by
  simp [lo64]

@[simp] theorem toNat_hi64 (q : U128) : (hi64 q).toNat = q.toNat / 2 ^ 64 := by
  have hlt : q.toNat / 2 ^ 64 < 2 ^ 64 := Nat.div_lt_of_lt_mul q.isLt
  rw [hi64, BitVec.extractLsb'_toNat, Nat.shiftRight_eq_div_pow, Nat.mod_eq_of_lt hlt]

theorem wide64_zero_left (p : U64) : wide64 0#64 p = 0#128 := by
  simp [wide64]

/-- The low half is the product that wraps. -/
theorem lo64_wide64 (v p : U64) : lo64 (wide64 v p) = v * p := by
  apply BitVec.eq_of_toNat_eq
  rw [toNat_lo64, toNat_wide64, BitVec.toNat_mul]

/-- The high half of a product by a word stays below the other factor (R155); truncated subtraction covers the prime 0. -/
theorem toNat_hi64_wide64_le (v p : U64) : (hi64 (wide64 v p)).toNat ≤ p.toNat - 1 := by
  rw [toNat_hi64, toNat_wide64]
  rcases Nat.eq_zero_or_pos p.toNat with hp | hp
  · simp [hp]
  · have hlt : v.toNat * p.toNat < 2 ^ 64 * p.toNat := Nat.mul_lt_mul_of_pos_right v.isLt hp
    exact Nat.le_sub_one_of_lt (Nat.div_lt_of_lt_mul hlt)

theorem hi64_wide64_one_left (p : U64) : hi64 (wide64 1#64 p) = 0#64 := by
  apply BitVec.eq_of_toNat_eq
  simpa using p.isLt

/-- `(2^64 - 1) * p` is `(p - 1) * 2^64 + (2^64 - p)` (R154). -/
theorem hi64_wide64_allOnes_left {p : U64} (hp : p ≠ 0#64) : hi64 (wide64 (BitVec.allOnes 64) p) = p - 1#64 := by
  have hpos : 1 ≤ p.toNat := Nat.pos_of_ne_zero fun h => hp (BitVec.eq_of_toNat_eq h)
  have hlt := p.isLt
  apply BitVec.eq_of_toNat_eq
  rw [toNat_hi64, toNat_wide64, BitVec.toNat_allOnes, BitVec.toNat_sub_of_le hpos, BitVec.toNat_one (by decide)]
  omega

theorem lo64_wide64_allOnes_left (p : U64) : lo64 (wide64 (BitVec.allOnes 64) p) = -p := by
  rw [lo64_wide64, ← BitVec.neg_one_eq_allOnes, BitVec.neg_mul, BitVec.one_mul]

/-! ### The widening xor (R154) -/

theorem toNat_uWxor64 (v p : U64) :
    (uWxor64 v p).toNat = (v.toNat * p.toNat % 2 ^ 64) ^^^ (v.toNat * p.toNat / 2 ^ 64) := by
  simp only [uWxor64, BitVec.toNat_xor, toNat_lo64, toNat_hi64, toNat_wide64]

theorem uWxor64_zero_left (p : U64) : uWxor64 0#64 p = 0#64 := by
  rw [uWxor64, wide64_zero_left]
  rfl

theorem uWxor64_one_left (p : U64) : uWxor64 1#64 p = p := by
  rw [uWxor64, lo64_wide64, hi64_wide64_one_left, BitVec.one_mul, BitVec.xor_zero]

/-- The two halves are bitwise complements. -/
theorem uWxor64_allOnes_left {p : U64} (hp : p ≠ 0#64) : uWxor64 (BitVec.allOnes 64) p = BitVec.allOnes 64 := by
  have hcompl : p - 1#64 = ~~~(-p) := (BitVec.not_neg p).symm
  rw [uWxor64, lo64_wide64_allOnes_left, hi64_wide64_allOnes_left hp, hcompl, ← BitVec.not_xor_right, BitVec.xor_self,
    BitVec.not_zero]

/-! ### The 64-bit pair update (R155) -/

theorem toNat_uPupd64_fst (a b w p : U64) :
    (uPupd64 a b w p).1.toNat = a.toNat ^^^ ((b.toNat + w.toNat) % 2 ^ 64 * p.toNat % 2 ^ 64) := by
  simp only [uPupd64, BitVec.toNat_xor, toNat_lo64, toNat_wide64, BitVec.toNat_add]

theorem toNat_uPupd64_snd (a b w p : U64) :
    (uPupd64 a b w p).2.toNat = (b.toNat + (b.toNat + w.toNat) % 2 ^ 64 * p.toNat / 2 ^ 64) % 2 ^ 64 := by
  simp only [uPupd64, toNat_hi64, toNat_wide64, BitVec.toNat_add]

theorem uPupd64_of_sum_eq_zero {b w : U64} (h : b + w = 0#64) (a p : U64) : uPupd64 a b w p = (a, b) := by
  have hlo : lo64 0#128 = 0#64 := rfl
  have hhi : hi64 0#128 = 0#64 := rfl
  rw [uPupd64, h, wide64_zero_left, hlo, hhi, BitVec.xor_zero, BitVec.add_zero]

/-! ### The statements -/

/-- Settles O53: the product and its halves are exact; for all ones the high half `p - 1` is the complement of the low half
`-p`. -/
theorem widenXor : Obligations.WidenXor := by
  unfold Obligations.WidenXor
  exact ⟨toNat_uWxor64, fun p => ⟨uWxor64_zero_left p, uWxor64_one_left p⟩, fun p hp => uWxor64_allOnes_left hp,
    uWxor64_one_left _, by decide, by decide⟩

/-- Settles O54: the product of the wrapped sum is exact, its high half is below the prime, and a sum of 0 has the product
0. -/
theorem pairUpdate : Obligations.PairUpdate := by
  unfold Obligations.PairUpdate
  refine ⟨fun a b w p => ⟨toNat_uPupd64_fst a b w p, toNat_uPupd64_snd a b w p,
    fun h => uPupd64_of_sum_eq_zero h a p, ?_⟩, by decide, by decide, by decide⟩
  have hhigh := toNat_hi64_wide64_le (b + w) p
  rwa [toNat_hi64, toNat_wide64, BitVec.toNat_add] at hhigh

end Sys2Proof.Machine
end

section
/-! PROOFS. The streaming hasher (spec/45_streaming.md): what an accepting core's command write comes to, the bits of `STATUS`
(spec/10_state.md R43), and `SINIT` (R241). -/

namespace Sys2Proof.Machine

open Sys2Proof

/-! ### A command of an accepting core -/

/-- None of the earlier conditions of R299 applies, so the command write is its body and then `settle`. -/
theorem State.Accepts.runCommand_eq {s : State} (h : s.Accepts) (i : Instr) (body : State → Except Raise State) :
    runCommand i body s = settle (body (s.retire.startCommand (encode i))) :=
  Machine.runCommand_eq h.running h.fill (.inl h.noError)

@[simp] theorem State.ended_done (s : State) (i : Instr) (w : Work) : (s.ended i w).done = true := rfl

/-- A body that only writes the streaming hasher: a completed command shows the write and the frame of R102. -/
theorem settle_ok_withStream (s : State) (i : Instr) (x : Stream) :
    settle (.ok ((s.retire.startCommand (encode i)).withStream x)) =
      { s.ended i { s.work with phase := .idle } with stream := x } :=
  rfl

/-! ### The bits of `STATUS` -/

theorem getLsbD_flagAt (k : Nat) {j : Nat} (b : Bool) (hj : j < 32) : (flagAt k b).getLsbD j = (b && decide (j = k)) := by
  cases b with
  | false => simp [flagAt]
  | true =>
    rw [flagAt, if_pos rfl, BitVec.getLsbD_shiftLeft, BitVec.getLsbD_one, Bool.true_and, Bool.eq_iff_iff]
    simp only [Bool.and_eq_true, Bool.not_eq_true', decide_eq_true_eq, decide_eq_false_iff_not]
    omega

/-- Each flag shows at its own bit only. -/
theorem State.getLsbD_status (s : State) {j : Nat} (hj : j < 32) :
    s.status.getLsbD j = (s.done && decide (j = 0) || s.err != .none && decide (j = 1) ||
      s.stream.sstate == .live && decide (j = 2) || s.stream.sstate == .done && decide (j = 3) ||
      s.sel.isSome && decide (j = 4) || s.avalid && decide (j = 5) || s.halt && decide (j = 6)) := by
  simp only [State.status, BitVec.getLsbD_or, getLsbD_flagAt _ _ hj]

/-! ### `SINIT` -/

/-- The context `SINIT` creates (R241) over the buffer of the one it discards. -/
def Stream.created (c : Stream) (x y : U64) : Stream :=
  { c with acc := uG3Init x y, fill := 0#6, total := 0#64, sstate := .live }

@[simp] theorem Stream.created_sstate (c : Stream) (x y : U64) : (c.created x y).sstate = .live := rfl

theorem sinitBody_eq (s : State) : sinitBody s = .ok (s.withStream (s.stream.created s.seedX s.seedY)) := rfl

/-- `SINIT` does not look at `SSTATE` (R241). -/
theorem exec_sinit_of_accepts {s : State} (h : s.Accepts) :
    exec .sinit s = .next { s.ended .sinit { s.work with phase := .idle } with
      stream := s.stream.created s.seedX s.seedY } := by
  have hexec : exec .sinit s = .next (runCommand .sinit sinitBody s) := exec_eq .sinit s
  rw [hexec, h.runCommand_eq, sinitBody_eq, settle_ok_withStream]
  rfl

/-- Settles O34: the completed `SINIT` is the frame around the created context, and `STATUS` shows its `DONE` and `SSTATE`. -/
theorem sinitResult : Obligations.SinitResult := by
  unfold Obligations.SinitResult
  intro s hs
  refine ⟨_, exec_sinit_of_accepts hs, rfl, ?_, ?_, ?_⟩ <;> rw [State.getLsbD_status _ (by decide)]
  · simp
  · simp
  · simp

end Sys2Proof.Machine
end

section
/-! PROOFS. The control commands and the adapter's (spec/46_dispatch_adapter_control.md): what a command that gets past the
checks of every command write and raises nothing comes to, and `NOP` (R277), `CLRERR` (R278), `AINIT` (R274) and `AFIN` (R276). -/

namespace Sys2Proof.Machine

open Sys2Proof

/-! ### A command that completes -/

/-- None of the conditions of R299 applies: `t` is what the body leaves, before `DONE` is set. -/
theorem exec_of_body_ok {i : Instr} {body : State → Except Raise State} {s t : State}
    (hexec : exec i s = .next (runCommand i body s)) (hrun : s.halt = false) (hfill : s.stream.fill.toNat < 32)
    (herr : s.err = .none ∨ runsWhilePending i = true) (hbody : body (s.retire.startCommand (encode i)) = .ok t) :
    exec i s = .next t.complete.redraw := by
  rw [hexec, runCommand_eq hrun hfill herr, hbody, settle_ok]

/-- `State.ended` is the frame of R102 around a body that writes nothing. -/
theorem complete_redraw_startCommand (s : State) (i : Instr) :
    (s.retire.startCommand (encode i)).complete.redraw = s.ended i { s.work with phase := .idle } := rfl

/-! ### `NOP` and `CLRERR`, which run while an error is pending (R303) -/

theorem exec_nop_running {s : State} (hrun : s.halt = false) (hfill : s.stream.fill.toNat < 32) :
    exec .nop s = .next (s.ended .nop { s.work with phase := .idle }) := by
  rw [← complete_redraw_startCommand]
  exact exec_of_body_ok (exec_eq .nop s) hrun hfill (.inr rfl) rfl

/-- Only the error registers differ from the frame: a context that a bus error poisoned stays `S_NONE` (R278). -/
theorem exec_clrerr_running {s : State} (hrun : s.halt = false) (hfill : s.stream.fill.toNat < 32) :
    exec .clrerr s = .next (s.ended .clrerr { s.work with phase := .idle }).clearError := by
  rw [← complete_redraw_startCommand]
  exact exec_of_body_ok (exec_eq .clrerr s) hrun hfill (.inr rfl) rfl

/-- Settles O27: a running core executes `NOP` whatever `ERR` holds, and a halted one takes the event only. -/
theorem nopResult : Obligations.NopResult := by
  unfold Obligations.NopResult
  exact ⟨fun s hrun hfill => ⟨exec_nop_running hrun hfill, rfl⟩, fun s hhalt => exec_halted .nop hhalt⟩

/-- Settles O28: the completed `CLRERR` is the return from an error inside the frame of R102, and a halted core takes the
event only. -/
theorem clrerrResult : Obligations.ClrerrResult := by
  unfold Obligations.ClrerrResult
  exact ⟨fun s hrun hfill => exec_clrerr_running hrun hfill, fun s hhalt => exec_halted .clrerr hhalt⟩

/-! ### The adapter -/

theorem ainitBody_eq (s : State) : ainitBody s = .ok (s.withAdapter s.seedX) := rfl

/-- `AINIT` does not look at `AVALID`: it restarts an adapter that exists (R274). -/
theorem exec_ainit_of_accepts {s : State} (h : s.Accepts) :
    exec .ainit s = .next ((s.ended .ainit { s.work with phase := .idle }).withAdapter s.seedX) := by
  rw [← complete_redraw_startCommand]
  exact exec_of_body_ok (exec_eq .ainit s) h.running h.fill (.inl h.noError) (ainitBody_eq _)

theorem afinBody_of_avalid {s : State} (h : s.avalid = true) : afinBody s = .ok (s.withResult 0#64 s.astate) := by
  obtain ⟨-, heq⟩ | ⟨hnone, -⟩ := needAdapter_cases s fun s => .ok (s.withResult 0#64 s.astate)
  · exact heq
  · simp [h] at hnone

theorem exec_afin_of_accepts {s : State} (h : s.Accepts) (havalid : s.avalid = true) :
    exec .afin s = .next ((s.ended .afin { s.work with phase := .idle }).withResult 0#64 s.astate) := by
  rw [← complete_redraw_startCommand]
  exact exec_of_body_ok (exec_eq .afin s) h.running h.fill (.inl h.noError) (afinBody_of_avalid havalid)

/-- Settles O38: `AINIT` writes the adapter from `SEED_X` inside the frame of R102. -/
theorem ainitResult : Obligations.AinitResult := by
  unfold Obligations.AinitResult
  exact fun s h => exec_ainit_of_accepts h

/-- Settles O40: with the adapter created `AFIN` writes the result registers only, so the adapter is not consumed. -/
theorem afinResult : Obligations.AfinResult := by
  unfold Obligations.AfinResult
  exact fun s h havalid => exec_afin_of_accepts h havalid

end Sys2Proof.Machine
end

section
/-! PROOFS. The bytes the commands read (spec/20_memory.md R83, R84, R85). Every read lies in pages that hold a byte of the
input, so a memory-reading body gets through exactly when every page with an input byte is mapped. -/

namespace Sys2Proof.Machine

open Sys2Proof

/-! ### Reads that need every byte of a stretch mapped -/

/-- Every one of the `n` addresses from `a` on lies in a mapped page. -/
def Memory.MappedOn (m : Memory) (a n : Nat) : Prop := ∀ i < n, m.mapped (a + i) = true

theorem Memory.mappedOn_zero (m : Memory) (a : Nat) : m.MappedOn a 0 := fun _ hi => absurd hi (Nat.not_lt_zero _)

theorem Memory.mappedOn_add (m : Memory) (a n k : Nat) :
    m.MappedOn a (n + k) ↔ m.MappedOn a n ∧ m.MappedOn (a + n) k := by
  refine ⟨fun h => ⟨fun i hi => h i (by omega), fun i hi => ?_⟩, fun ⟨hn, hk⟩ i hi => ?_⟩
  · rw [Nat.add_assoc]
    exact h (n + i) (by omega)
  · by_cases hin : i < n
    · exact hn i hin
    · have := hk (i - n) (by omega)
      rwa [show a + n + (i - n) = a + i by omega] at this

/-- A run that gets through, then with `post`, exactly when the `n` bytes from `a` on are mapped. -/
def ReadsAll {ε α : Type} (m : Memory) (a n : Nat) (post : α → Prop) : Except ε α → Prop
  | .ok x => m.MappedOn a n ∧ post x
  | .error _ => ¬ m.MappedOn a n

section
variable {ε ε' α β : Type} {m : Memory} {a n k : Nat} {post : α → Prop} {post' : β → Prop}

theorem readsAll_pure {x : α} (h : post x) : ReadsAll m a 0 post (.ok x : Except ε α) := ⟨m.mappedOn_zero a, h⟩

theorem ReadsAll.imp {r : Except ε α} {post' : α → Prop} (h : ReadsAll m a n post r) (hp : ∀ x, post x → post' x) :
    ReadsAll m a n post' r := by
  cases r with
  | ok x => exact ⟨h.1, hp x h.2⟩
  | error y => exact h

/-- One run after another reads one stretch after another. -/
theorem ReadsAll.bind {r : Except ε α} {f : α → Except ε β} (h : ReadsAll m a n post r)
    (hf : ∀ x, post x → ReadsAll m (a + n) k post' (f x)) : ReadsAll m a (n + k) post' (r >>= f) := by
  cases r with
  | error y => exact fun hm => h ((m.mappedOn_add a n k).1 hm).1
  | ok x =>
    obtain ⟨hn, hx⟩ := h
    have hk := hf x hx
    show ReadsAll m a (n + k) post' (f x)
    cases hfx : f x <;> rw [hfx] at hk
    · exact fun hm => hk ((m.mappedOn_add a n k).1 hm).2
    · exact ⟨(m.mappedOn_add a n k).2 ⟨hn, hk.1⟩, hk.2⟩

theorem ReadsAll.mapError {r : Except ε α} {g : ε → ε'} (h : ReadsAll m a n post r) :
    ReadsAll m a n post (r.mapError g) := by
  cases r <;> exact h

/-- What is done with the answer of a run, or with its error, reads nothing. -/
theorem ReadsAll.conv {r : Except ε α} {r' : Except ε' β} (h : ReadsAll m a n post r)
    (hok : ∀ x, r = .ok x → post x → ∃ y, r' = .ok y ∧ post' y) (herr : ∀ x, r = .error x → ∃ y, r' = .error y) :
    ReadsAll m a n post' r' := by
  cases r with
  | ok x =>
    obtain ⟨y, rfl, hy⟩ := hok x rfl h.2
    exact ⟨h.1, hy⟩
  | error x =>
    obtain ⟨y, rfl⟩ := herr x rfl
    exact h

end

/-- `POS` after `c` bytes of an input that ends within the address space: it wraps only where nothing is left to read. -/
theorem ReadsAll.of_advance {ε α : Type} {m : Memory} {p : U64} {c n : Nat} {post : α → Prop} {r : Except ε α}
    (h : ReadsAll m (p + BitVec.ofNat 64 c).toNat n post r) (hend : p.toNat + c + n ≤ 2 ^ 64) :
    ReadsAll m (p.toNat + c) n post r := by
  by_cases hw : p.toNat + c < 2 ^ 64
  · rwa [BitVec.toNat_add, BitVec.toNat_ofNat, Nat.add_mod_mod, Nat.mod_eq_of_lt hw] at h
  · obtain rfl : n = 0 := by omega
    cases r with
    | ok x => exact ⟨m.mappedOn_zero _, h.2⟩
    | error y => exact absurd (m.mappedOn_zero _) h

/-- The position meets the discipline for words of `W` bytes (R78). -/
abbrev PosAligned (W : Nat) (a : Discipline) (p : U64) : Prop := a = .aligned → p.toNat % W = 0

/-- The word sizes of the hardware (R76). -/
abbrev WordSize (W : Nat) : Prop := W = 4 ∨ W = 8

theorem PosAligned.advance {W c : Nat} {a : Discipline} {p : U64} (hW : WordSize W) (hc : W ∣ c)
    (h : PosAligned W a p) : PosAligned W a (p + BitVec.ofNat 64 c) := by
  intro ha
  have hp := h ha
  rw [BitVec.toNat_add, BitVec.toNat_ofNat]
  obtain rfl | rfl := hW <;> omega

/-! ### Single reads -/

theorem readsAll_uFetch (m : Memory) (W : Nat) (e : Endian) (pos : Nat) :
    ReadsAll m pos W (fun _ => True) (uFetch m W e pos) := by
  obtain ⟨h, hm⟩ | ⟨i, hi, h, hu, -⟩ := uFetch_cases m W e pos <;> rw [h]
  · exact ⟨hm, trivial⟩
  · exact fun hm => by simp [hm i hi] at hu

theorem Memory.mapped_of_same_page {m : Memory} {x y : Nat} (h : x / pageSize = y / pageSize) :
    m.mapped x = m.mapped y := by
  rw [Memory.mapped, Memory.mapped, h]

/-- A full word inside the page of `pos` is mapped exactly when the valid bytes at its start are (R85, forward read). -/
theorem Memory.mappedOn_forward {m : Memory} {W pos r : Nat} (hr : 1 ≤ r) (hrW : r ≤ W)
    (hpage : ∀ i < W, (pos + i) / pageSize = pos / pageSize) : m.MappedOn pos W ↔ m.MappedOn pos r := by
  refine ⟨fun h i hi => h i (by omega), fun h i hi => ?_⟩
  rw [Memory.mapped_of_same_page (hpage i hi)]
  exact h 0 hr

/-- A word that ends with the valid bytes, its bytes before them in the page of `pos`, is mapped exactly when they are (R85,
underside read). -/
theorem Memory.mappedOn_underside {m : Memory} {W pos r : Nat} (hr : 1 ≤ r) (hrW : r ≤ W) (hoff : W ≤ pos % pageSize) :
    m.MappedOn (pos - (W - r)) W ↔ m.MappedOn pos r := by
  have hpos := Nat.mod_le pos pageSize
  have hsplit := m.mappedOn_add (pos - (W - r)) (W - r) r
  rw [show W - r + r = W by omega, show pos - (W - r) + (W - r) = pos by omega] at hsplit
  refine hsplit.trans ⟨And.right, fun h => ⟨fun i hi => ?_, h⟩⟩
  have hpage : (pos - (W - r) + i) / pageSize = pos / pageSize := by
    unfold pageSize at *
    omega
  rw [Memory.mapped_of_same_page hpage]
  exact h 0 hr

/-- The test of R84 on the page offset. -/
theorem and_pageSize_sub_eq_zero_iff {W : Nat} (hW : WordSize W) (pos : Nat) :
    pos &&& (pageSize - W) = 0 ↔ pos % pageSize < W := by
  have key (j : Nat) : pos &&& ((2 ^ (12 - j) - 1) <<< j) = (pos >>> j % 2 ^ (12 - j)) <<< j := by
    rw [← Nat.and_two_pow_sub_one_eq_mod]
    refine Nat.eq_of_testBit_eq fun i => ?_
    by_cases hi : j ≤ i
    · simp [hi, Bool.and_comm]
    · simp [hi]
  obtain rfl | rfl := hW
  · have := key 2
    simp only [Nat.shiftLeft_eq, Nat.shiftRight_eq_div_pow] at this
    norm_num [pageSize] at this ⊢
    omega
  · have := key 3
    simp only [Nat.shiftLeft_eq, Nat.shiftRight_eq_div_pow] at this
    norm_num [pageSize] at this ⊢
    omega

/-- A tail read needs the pages of its valid bytes, no matter which way it goes (R85). -/
theorem readsAll_uTail {m : Memory} {W r pos : Nat} {e : Endian} {a : Discipline} (hW : WordSize W) (hr : 1 ≤ r)
    (hrW : r ≤ W) (ha : a = .aligned → pos % W = 0) : ReadsAll m pos r (fun _ => True) (uTail m W e a pos r) := by
  by_cases hf : readsForward W a pos = true
  · have hpage : ∀ i < W, (pos + i) / pageSize = pos / pageSize := by
      intro i hi
      have hoff : pos % W = 0 ∨ pos % pageSize < W := by
        rw [readsForward, Bool.or_eq_true, beq_iff_eq, beq_iff_eq] at hf
        exact hf.imp ha (and_pageSize_sub_eq_zero_iff hW pos).1
      unfold pageSize at *
      obtain rfl | rfl := hW <;> omega
    have h := readsAll_uFetch m W e pos
    simp only [uTail, if_pos hf]
    cases hx : uFetch m W e pos <;> rw [hx] at h
    · exact fun hm => h ((Memory.mappedOn_forward hr hrW hpage).2 hm)
    · exact ⟨(Memory.mappedOn_forward hr hrW hpage).1 h.1, trivial⟩
  · have hoff : W ≤ pos % pageSize := by
      by_contra hlt
      have := (and_pageSize_sub_eq_zero_iff hW pos).2 (by omega)
      simp [readsForward, this] at hf
    have h := readsAll_uFetch m W e (pos - (W - r))
    simp only [uTail, if_neg hf]
    cases hx : uFetch m W e (pos - (W - r)) <;> rw [hx] at h
    · exact fun hm => h ((Memory.mappedOn_underside hr hrW hoff).2 hm)
    · exact ⟨(Memory.mappedOn_underside hr hrW hoff).1 h.1, trivial⟩

theorem readsAll_fetch (w : Work) (m : Memory) (W : Nat) (e : Endian) (off : Nat) :
    ReadsAll m (w.pos.toNat + off) W (fun _ => True) (w.fetch m W e off) :=
  (readsAll_uFetch m W e (w.pos.toNat + off)).conv
    (fun x hx _ => ⟨x, by rw [Work.fetch, hx], trivial⟩) (fun x hx => ⟨⟨x, w⟩, by rw [Work.fetch, hx]⟩)

theorem readsAll_tail {w : Work} {m : Memory} {W r : Nat} {e : Endian} {a : Discipline} (hW : WordSize W) (hr : 1 ≤ r)
    (hrW : r ≤ W) (ha : PosAligned W a w.pos) : ReadsAll m w.pos.toNat r (fun _ => True) (w.tail m W e a r) :=
  (readsAll_uTail hW hr hrW ha).conv
    (fun x hx _ => ⟨x, by rw [Work.tail, hx], trivial⟩) (fun x hx => ⟨⟨x, w⟩, by rw [Work.tail, hx]⟩)

end Sys2Proof.Machine
end

section
/-! PROOFS. The one-shot bodies read their whole input and no page without an input byte (spec/20_memory.md R83 to R85): the
bulk loop (spec/40_memory_unit.md), the two kinds of tail cascade, and the four bodies. -/

namespace Sys2Proof.Machine

open Sys2Proof

/-! ### The bulk loop -/

/-- The four word reads of a block step. -/
theorem readsAll_fourWords {ε α β : Type} {m : Memory} {a W : Nat} {r0 r1 r2 r3 : Except ε α}
    {f : α → α → α → α → Except ε β} {post : β → Prop}
    (h0 : ReadsAll m a W (fun _ => True) r0) (h1 : ReadsAll m (a + W) W (fun _ => True) r1)
    (h2 : ReadsAll m (a + 2 * W) W (fun _ => True) r2) (h3 : ReadsAll m (a + 3 * W) W (fun _ => True) r3)
    (hf : ∀ x0 x1 x2 x3, ∃ y, f x0 x1 x2 x3 = .ok y ∧ post y) :
    ReadsAll m a (4 * W) post (do let x0 ← r0; let x1 ← r1; let x2 ← r2; let x3 ← r3; f x0 x1 x2 x3) := by
  rw [show 4 * W = W + (W + (W + (W + 0))) by omega]
  refine h0.bind fun x0 _ => h1.bind fun x1 _ => ?_
  rw [show a + W + W = a + 2 * W by omega]
  refine h2.bind fun x2 _ => ?_
  rw [show a + 2 * W + W = a + 3 * W by omega]
  refine h3.bind fun x3 _ => ?_
  obtain ⟨y, hy, hpost⟩ := hf x0 x1 x2 x3
  rw [hy]
  exact readsAll_pure hpost

/-- A block step reads one block at `POS` and leaves `POS`. -/
abbrev ReadsBlock (m : Memory) (size : Nat) (blk : Work → Except BusStop Work) : Prop :=
  ∀ w : Work, ReadsAll m w.pos.toNat size (fun w' => w'.pos = w.pos) (blk w)

theorem readsBlock_uG1Blk (k : Config) (m : Memory) (e : Endian) : ReadsBlock m 16 (uG1Blk k m e) := fun w =>
  readsAll_fourWords (readsAll_fetch w m 4 e 0) (readsAll_fetch w m 4 e 4) (readsAll_fetch w m 4 e 8)
    (readsAll_fetch w m 4 e 12) fun _ _ _ _ => ⟨_, rfl, rfl⟩

theorem readsBlock_uG2Blk (k : Config) (m : Memory) (e : Endian) : ReadsBlock m 32 (uG2Blk k m e) := fun w =>
  readsAll_fourWords (readsAll_fetch w m 8 e 0) (readsAll_fetch w m 8 e 8) (readsAll_fetch w m 8 e 16)
    (readsAll_fetch w m 8 e 24) fun _ _ _ _ => ⟨_, rfl, rfl⟩

theorem readsAll_memSource_word (m : Memory) (a : Discipline) (w : Work) (i : Nat) :
    ReadsAll m (w.pos.toNat + 8 * i) 8 (fun _ => True) ((memSource m a w).word i) :=
  (readsAll_fetch w m 8 .little (8 * i)).conv
    (fun x hx _ => ⟨.ofNat 64 x, by simp [memSource, hx, Except.map], trivial⟩)
    (fun x hx => ⟨x, by simp [memSource, hx, Except.map]⟩)

theorem readsBlock_g3MemBlk (k : Config) (m : Memory) (a : Discipline) : ReadsBlock m 32 (g3MemBlk k m a) := fun w =>
  readsAll_fourWords (readsAll_memSource_word m a w 0) (readsAll_memSource_word m a w 1)
    (readsAll_memSource_word m a w 2) (readsAll_memSource_word m a w 3) fun _ _ _ _ => ⟨_, rfl, rfl⟩

theorem readsAll_repeatBlocks {m : Memory} {size : Nat} {blk : Work → Except BusStop Work} (hblk : ReadsBlock m size blk)
    (n : Nat) : ∀ w : Work, w.pos.toNat + size * n ≤ 2 ^ 64 →
      ReadsAll m w.pos.toNat (size * n) (fun w' => w'.pos = w.pos + BitVec.ofNat 64 (size * n))
        (repeatBlocks blk size n w) := by
  induction n with
  | zero => exact fun w _ => readsAll_pure (by simp)
  | succ n ih =>
    intro w hend
    rw [Nat.mul_succ, Nat.add_comm (size * n)] at hend ⊢
    have hrun : repeatBlocks blk size (n + 1) w = blk w >>= fun w' => repeatBlocks blk size n (w'.advance size) := by
      rw [repeatBlocks]
      cases blk w <;> rfl
    rw [hrun]
    refine (hblk w).bind fun w' hw' => ?_
    have hpos : (w'.advance size).pos = w.pos + BitVec.ofNat 64 size := by rw [Work.advance, hw']
    have hle : (w.pos + BitVec.ofNat 64 size).toNat ≤ w.pos.toNat + size := by
      rw [BitVec.toNat_add, BitVec.toNat_ofNat, Nat.add_mod_mod]
      exact Nat.mod_le _ _
    have h := ih (w'.advance size) (by rw [hpos]; omega)
    rw [hpos] at h
    refine (h.of_advance (by omega)).imp fun w'' hw'' => ?_
    rw [hw'', BitVec.ofNat_add, BitVec.add_assoc]

/-- The bytes of the whole blocks an input of `len` bytes has, if it is longer than a block. -/
def bulkBytes (size len : Nat) : Nat := if size < len then size * (len / size) else 0

theorem bulkBytes_le (size len : Nat) : bulkBytes size len ≤ len := by
  unfold bulkBytes
  split
  · exact Nat.mul_div_le len size
  · exact Nat.zero_le len

theorem sub_bulkBytes_le {size : Nat} (hs : 0 < size) (len : Nat) : len - bulkBytes size len ≤ size := by
  unfold bulkBytes
  split
  · have := Nat.mod_lt len hs
    have := Nat.div_add_mod len size
    omega
  · omega

theorem dvd_bulkBytes {W size : Nat} (h : W ∣ size) (len : Nat) : W ∣ bulkBytes size len := by
  unfold bulkBytes
  split
  · exact h.mul_right _
  · exact dvd_zero W

/-- What the bulk part of a body leaves: `POS` after the whole blocks, and in `REM` what is left. -/
structure BulkDone (size len : Nat) (p : U64) (w : Work) : Prop where
  pos : w.pos = p + BitVec.ofNat 64 (bulkBytes size len)
  rem : w.rem.toNat = len - bulkBytes size len

/-- The shape of `g1Bulk`, `g2Bulk` and `g3Bulk`. -/
theorem readsAll_bulk {m : Memory} {size len : Nat} {blk : Work → Except BusStop Work} {w w1 w2 : Work}
    {after : Work → Work} {r : Except BusStop Work} (hblk : ReadsBlock m size blk) (hsize : size = 16 ∨ size = 32)
    (hend : w.pos.toNat + len ≤ 2 ^ 64) (hw1 : w1.pos = w.pos) (hw2 : w2.pos = w.pos) (hrem2 : w2.rem = .ofNat 6 len)
    (hpos : ∀ u, (after u).pos = u.pos) (hrem : ∀ u, (after u).rem = .ofNat 6 (len % size))
    (hr : r = if size < len then
      match repeatBlocks blk size (len / size) w1 with
      | .ok w => .ok (after w)
      | .error x => .error x
      else .ok w2) :
    ReadsAll m w.pos.toNat (bulkBytes size len) (BulkDone size len w.pos) r := by
  have hmod : len % size < 64 := (Nat.mod_lt len (by omega)).trans_le (by omega)
  subst hr
  by_cases hlen : size < len
  · have hbytes : bulkBytes size len = size * (len / size) := if_pos hlen
    have hdiv := Nat.div_add_mod len size
    rw [if_pos hlen, hbytes, ← hw1]
    refine (readsAll_repeatBlocks hblk (len / size) w1 (by rw [hw1]; omega)).conv (fun u hu hpost => ?_) fun x hx => ?_
    · refine ⟨after u, by rw [hu], ⟨by rw [hpos, hpost, hbytes], ?_⟩⟩
      rw [hrem, BitVec.toNat_ofNat, hbytes]
      omega
    · exact ⟨x, by rw [hx]⟩
  · have hbytes : bulkBytes size len = 0 := if_neg hlen
    rw [if_neg hlen, hbytes]
    refine readsAll_pure ⟨by rw [hw2, hbytes]; simp, ?_⟩
    rw [hrem2, BitVec.toNat_ofNat, hbytes]
    omega

/-! ### The tail cascades -/

/-- The bytes a full-word bucket of a cascade reads. -/
def bucketBytes (W thr rem : Nat) : Nat := if thr < rem then W else 0

theorem dvd_bucketBytes (W thr rem : Nat) : W ∣ bucketBytes W thr rem := by
  unfold bucketBytes
  split
  · exact dvd_rfl
  · exact dvd_zero W

/-- The bytes the last bucket of a cascade reads. -/
def lastBytes (W rem : Nat) : Nat := if 0 < rem then uTailLen W rem else 0

/-- A cascade reads its remainder (R132). -/
theorem cascade_bytes {W rem : Nat} (hW : WordSize W) (hrem : rem ≤ 4 * W) :
    bucketBytes W (3 * W) rem + (bucketBytes W (2 * W) rem + (bucketBytes W W rem + lastBytes W rem)) = rem := by
  unfold bucketBytes lastBytes uTailLen
  obtain rfl | rfl := hW <;> split_ifs <;> omega

theorem uTailLen_pos (W rem : Nat) : 1 ≤ uTailLen W rem := by
  unfold uTailLen
  omega

theorem uTailLen_le {W : Nat} (hW : WordSize W) (rem : Nat) : uTailLen W rem ≤ W := by
  unfold uTailLen
  obtain rfl | rfl := hW <;> omega

theorem readsAll_tailWord (m : Memory) (W : Nat) (e : Endian) (ph : Phase) (thr rem : Nat) (upd : Nat → Quad → Quad)
    (w : Work) : ReadsAll m w.pos.toNat (bucketBytes W thr rem)
      (fun w' => w'.pos = w.pos + BitVec.ofNat 64 (bucketBytes W thr rem)) (tailWord m W e ph thr rem upd w) := by
  by_cases h : thr < rem
  · have hb : bucketBytes W thr rem = W := if_pos h
    rw [hb]
    refine (readsAll_fetch { w with phase := ph } m W e 0).conv (fun x hx _ => ?_) fun x hx => ?_
    · exact ⟨{ w with phase := ph, acc := upd x w.acc }.advance W, by simp only [tailWord, if_pos h, hx], rfl⟩
    · exact ⟨x, by simp only [tailWord, if_pos h, hx]⟩
  · have hb : bucketBytes W thr rem = 0 := if_neg h
    rw [hb, tailWord, if_neg h]
    exact readsAll_pure (by simp)

theorem readsAll_tailLast {m : Memory} {W : Nat} {a : Discipline} {w : Work} (e : Endian) (rem : Nat)
    (upd : Nat → Quad → Quad) (hW : WordSize W) (ha : PosAligned W a w.pos) :
    ReadsAll m w.pos.toNat (lastBytes W rem) (fun _ => True) (tailLast m W e a rem upd w) := by
  by_cases h : 0 < rem
  · have hb : lastBytes W rem = uTailLen W rem := if_pos h
    rw [hb]
    refine (readsAll_tail (w := { w with phase := .t1 }) (e := e) hW (uTailLen_pos W rem) (uTailLen_le hW rem) ha).conv
      (fun x hx _ => ?_) fun x hx => ?_
    · exact ⟨{ w with phase := .t1, acc := upd x w.acc }, by simp only [tailLast, if_pos h, hx], trivial⟩
    · exact ⟨x, by simp only [tailLast, if_pos h, hx]⟩
  · have hb : lastBytes W rem = 0 := if_neg h
    rw [hb, tailLast, if_neg h]
    exact readsAll_pure trivial

/-- A part of a body that starts from any working bank and reads `n` bytes at `POS`, provided these lie within the address
space and `POS` meets the discipline. -/
abbrev ReadsFrom (m : Memory) (W : Nat) (a : Discipline) (n : Nat) (f : Work → Except BusStop Work) : Prop :=
  ∀ w : Work, PosAligned W a w.pos → w.pos.toNat + n ≤ 2 ^ 64 → ReadsAll m w.pos.toNat n (fun _ => True) (f w)

/-- A part that moves `POS` over the `c` bytes it reads, and the part after it. -/
theorem ReadsFrom.after {m : Memory} {W c n : Nat} {a : Discipline} {p : U64} {r : Except BusStop Work}
    {f : Work → Except BusStop Work} (hf : ReadsFrom m W a n f) (hW : WordSize W) (hc : W ∣ c)
    (hr : ReadsAll m p.toNat c (fun w => w.pos = p + BitVec.ofNat 64 c) r) (ha : PosAligned W a p)
    (hend : p.toNat + (c + n) ≤ 2 ^ 64) : ReadsAll m p.toNat (c + n) (fun _ => True) (r >>= f) := by
  refine hr.bind fun w hw => ReadsAll.of_advance ?_ (by omega)
  have hle : (p + BitVec.ofNat 64 c).toNat ≤ p.toNat + c := by
    rw [BitVec.toNat_add, BitVec.toNat_ofNat, Nat.add_mod_mod]
    exact Nat.mod_le _ _
  rw [← hw] at hle ⊢
  exact hf w (hw ▸ ha.advance hW hc) (by omega)

theorem readsFrom_cascade {m : Memory} {W rem : Nat} (e : Endian) (a : Discipline) (u4 u3 u2 u1 : Nat → Quad → Quad)
    (hW : WordSize W) (hrem : rem ≤ 4 * W) : ReadsFrom m W a rem (cascade m W e a rem u4 u3 u2 u1) := by
  have hlast : ReadsFrom m W a (lastBytes W rem) (tailLast m W e a rem u1) :=
    fun w ha _ => readsAll_tailLast e rem u1 hW ha
  have hbucket (ph : Phase) (thr n : Nat) (u : Nat → Quad → Quad) (f : Work → Except BusStop Work)
      (hf : ReadsFrom m W a n f) :
      ReadsFrom m W a (bucketBytes W thr rem + n) fun w => tailWord m W e ph thr rem u w >>= f :=
    fun w ha hend =>
      hf.after hW (dvd_bucketBytes W thr rem) (readsAll_tailWord m W e ph thr rem u w) ha hend
  have hall := hbucket .t4 (3 * W) _ u4 _ (hbucket .t3 (2 * W) _ u3 _ (hbucket .t2 W _ u2 _ hlast))
  rwa [cascade_bytes hW hrem] at hall

/-- A tail word of a generation-3 cascade, `i` words on from `POS`. -/
theorem readsAll_memSource_tailword {m : Memory} {a : Discipline} {w : Work} {i r : Nat} (hr : 1 ≤ r) (hr8 : r ≤ 8)
    (ha : PosAligned 8 a w.pos) (hend : w.pos.toNat + 8 * i + r ≤ 2 ^ 64) :
    ReadsAll m (w.pos.toNat + 8 * i) r (fun _ => True) ((memSource m a w).tailword i r) := by
  have h : ReadsAll m (w.advance (8 * i)).pos.toNat r (fun _ => True) ((w.advance (8 * i)).tail m 8 .little a r) :=
    readsAll_tail (.inr rfl) hr hr8 (ha.advance (.inr rfl) (dvd_mul_right 8 i))
  refine ReadsAll.of_advance (h.conv (fun x hx _ => ?_) fun x hx => ?_) hend
  · exact ⟨.ofNat 64 x, by simp [memSource, hx, Except.map, Except.mapError], trivial⟩
  · exact ⟨{ x with work := w }, by simp [memSource, hx, Except.map, Except.mapError]⟩

/-- A part of a generation-3 cascade that goes on from any word and reads `n` bytes, provided these lie within the address
space. -/
abbrev ReadsOn {β : Type} (m : Memory) (p : U64) (n : Nat) (f : Nat × Quad → Except BusStop β) : Prop :=
  ∀ iq : Nat × Quad, p.toNat + 8 * iq.1 + n ≤ 2 ^ 64 → ReadsAll m (p.toNat + 8 * iq.1) n (fun _ => True) (f iq)

theorem readsAll_g3Word (m : Memory) (a : Discipline) (w : Work) (thr rem : Nat) (upd : U64 → Quad → Quad)
    (iq : Nat × Quad) : ReadsAll m (w.pos.toNat + 8 * iq.1) (bucketBytes 8 thr rem)
      (fun iq' => 8 * iq'.1 = 8 * iq.1 + bucketBytes 8 thr rem) (g3Word (memSource m a w) thr rem upd iq) := by
  by_cases h : thr < rem
  · have hb : bucketBytes 8 thr rem = 8 := if_pos h
    rw [hb]
    refine (readsAll_memSource_word m a w iq.1).conv (fun x hx _ => ?_) fun x hx => ?_
    · exact ⟨(iq.1 + 1, upd x iq.2), by simp only [g3Word, if_pos h, hx], Nat.mul_succ 8 iq.1⟩
    · exact ⟨x, by simp only [g3Word, if_pos h, hx]⟩
  · have hb : bucketBytes 8 thr rem = 0 := if_neg h
    rw [hb, g3Word, if_neg h]
    exact readsAll_pure rfl

theorem readsOn_g3Last {m : Memory} {a : Discipline} {w : Work} (rem : Nat) (upd : U64 → Quad → Quad)
    (ha : PosAligned 8 a w.pos) : ReadsOn m w.pos (lastBytes 8 rem) (g3Last (memSource m a w) rem upd) := by
  intro iq hend
  by_cases h : 0 < rem
  · have hb : lastBytes 8 rem = uTailLen 8 rem := if_pos h
    rw [hb] at hend ⊢
    refine (readsAll_memSource_tailword (uTailLen_pos 8 rem) (uTailLen_le (.inr rfl) rem) ha hend).conv
      (fun x hx _ => ?_) fun x hx => ?_
    · exact ⟨upd x iq.2, by simp only [g3Last, if_pos h, hx], trivial⟩
    · exact ⟨x, by simp only [g3Last, if_pos h, hx]⟩
  · have hb : lastBytes 8 rem = 0 := if_neg h
    rw [hb, g3Last, if_neg h]
    exact readsAll_pure trivial

theorem readsAll_g3Cascade {m : Memory} {a : Discipline} {w : Work} {rem : Nat} (u4 u3 u2 u1 : U64 → Quad → Quad)
    (q : Quad) (ha : PosAligned 8 a w.pos) (hrem : rem ≤ 32) (hend : w.pos.toNat + rem ≤ 2 ^ 64) :
    ReadsAll m w.pos.toNat rem (fun _ => True) (g3Cascade (memSource m a w) rem u4 u3 u2 u1 q) := by
  have hword (thr n : Nat) (u : U64 → Quad → Quad) (f : Nat × Quad → Except BusStop Quad) (hf : ReadsOn m w.pos n f) :
      ReadsOn m w.pos (bucketBytes 8 thr rem + n) fun iq => g3Word (memSource m a w) thr rem u iq >>= f := by
    intro iq hend
    refine (readsAll_g3Word m a w thr rem u iq).bind fun iq' hiq' => ?_
    rw [Nat.add_assoc, ← hiq']
    exact hf iq' (by omega)
  have hall := hword 24 _ u4 _ (hword 16 _ u3 _ (hword 8 _ u2 _ (readsOn_g3Last rem u1 ha))) (0, q)
  rw [show 24 = 3 * 8 from rfl, show 16 = 2 * 8 from rfl, cascade_bytes (.inr rfl) hrem] at hall
  exact hall hend

/-! ### The bodies -/

/-- A tail part reads the `REM` bytes at `POS`. -/
abbrev ReadsRem (m : Memory) (W : Nat) (a : Discipline) (f : Work → Except BusStop Work) : Prop :=
  ∀ w : Work, PosAligned W a w.pos → w.rem.toNat ≤ 4 * W → w.pos.toNat + w.rem.toNat ≤ 2 ^ 64 →
    ReadsAll m w.pos.toNat w.rem.toNat (fun _ => True) (f w)

theorem readsAll_bulk_bind {m : Memory} {W len : Nat} {a : Discipline} {p : U64} {r : Except BusStop Work}
    {f : Work → Except BusStop Work} (hW : WordSize W) (ha : PosAligned W a p) (hend : p.toNat + len ≤ 2 ^ 64)
    (hr : ReadsAll m p.toNat (bulkBytes (4 * W) len) (BulkDone (4 * W) len p) r) (hf : ReadsRem m W a f) :
    ReadsAll m p.toNat len (fun _ => True) (r >>= f) := by
  have hle := bulkBytes_le (4 * W) len
  have hrest := sub_bulkBytes_le (size := 4 * W) (by omega) len
  suffices h : ReadsAll m p.toNat (bulkBytes (4 * W) len + (len - bulkBytes (4 * W) len)) (fun _ => True) (r >>= f) by
    rwa [Nat.add_sub_cancel' hle] at h
  refine hr.bind fun w hw => ReadsAll.of_advance ?_ (by omega)
  have hpos : w.pos.toNat ≤ p.toNat + bulkBytes (4 * W) len := by
    rw [hw.pos, BitVec.toNat_add, BitVec.toNat_ofNat, Nat.add_mod_mod]
    exact Nat.mod_le _ _
  have ha' : PosAligned W a w.pos := hw.pos ▸ ha.advance hW (dvd_bulkBytes (dvd_mul_left W 4) len)
  have h := hf w ha' (by rw [hw.rem]; omega) (by rw [hw.rem]; omega)
  rwa [hw.rem, hw.pos] at h

/-- What a body does after its tail reads nothing. -/
theorem ReadsRem.bind_ok {m : Memory} {W : Nat} {a : Discipline} {f : Work → Except BusStop Work} (hf : ReadsRem m W a f)
    (g : Work → Work) : ReadsRem m W a fun w => f w >>= fun w => .ok (g w) :=
  fun w ha hrem hend => (hf w ha hrem hend).bind fun _ _ => readsAll_pure trivial

theorem readsFrom_g1Body (k : Config) (m : Memory) (e : Endian) (a : Discipline) (seed len : U64) :
    ReadsFrom m 4 a len.toNat (g1Body k m e a seed len) := by
  intro w ha hend
  have hbulk : ReadsAll m w.pos.toNat (bulkBytes 16 len.toNat) (BulkDone 16 len.toNat w.pos)
      (g1Bulk k m e len.toNat { w with phase := .init, acc := uG1Init seed len w.acc }) :=
    readsAll_bulk (w1 := { w with phase := .bulk, acc := uG1BulkInit (uG1Init seed len w.acc) })
      (w2 := { w with phase := .init, acc := uG1Init seed len w.acc, rem := .ofNat 6 len.toNat })
      (after := fun u => { u with phase := .fold, acc := uG1Fold k u.acc, rem := .ofNat 6 (len.toNat % 16) })
      (readsBlock_uG1Blk k m e) (.inl rfl) hend rfl rfl rfl (fun _ => rfl) (fun _ => rfl) rfl
  have htail : ReadsRem m 4 a fun w => uG1Tail k m e a w.rem.toNat w :=
    fun w ha hrem hend => readsFrom_cascade e a _ _ _ _ (.inl rfl) hrem w ha hend
  exact readsAll_bulk_bind (.inl rfl) ha hend hbulk (htail.bind_ok fun w => { w with phase := .final })

theorem readsFrom_g2Body (k : Config) (m : Memory) (e : Endian) (a : Discipline) (seed len : U64) :
    ReadsFrom m 8 a len.toNat (g2Body k m e a seed len) := by
  intro w ha hend
  have hbulk : ReadsAll m w.pos.toNat (bulkBytes 32 len.toNat) (BulkDone 32 len.toNat w.pos)
      (g2Bulk k m e seed len { w with phase := .init, acc := uG2Init seed len w.acc }) :=
    readsAll_bulk (w1 := { w with phase := .bulk, acc := uG2BulkInit seed len (uG2Init seed len w.acc) })
      (w2 := { w with phase := .init, acc := uG2Init seed len w.acc, rem := .ofNat 6 len.toNat })
      (after := fun u => { u with phase := .fold, acc := uG2Fold k u.acc, rem := .ofNat 6 (len.toNat % 32) })
      (readsBlock_uG2Blk k m e) (.inr rfl) hend rfl rfl rfl (fun _ => rfl) (fun _ => rfl) rfl
  have htail : ReadsRem m 8 a fun w => uG2Tail k m e a w.rem.toNat w :=
    fun w ha hrem hend => readsFrom_cascade e a _ _ _ _ (.inr rfl) hrem w ha hend
  exact readsAll_bulk_bind (.inr rfl) ha hend hbulk (htail.bind_ok fun w => { w with phase := .final })

/-- The generation-3 bulk part, with or without the squash after it. -/
theorem readsAll_g3Bulk {len : Nat} {after : Work → Work} (k : Config) (m : Memory) (a : Discipline) {w : Work}
    (hend : w.pos.toNat + len ≤ 2 ^ 64) (hpos : ∀ u, (after u).pos = u.pos) (hrem : ∀ u, (after u).rem = u.rem) :
    ReadsAll m w.pos.toNat (bulkBytes 32 len) (BulkDone 32 len w.pos) (g3Bulk k m a len after w) :=
  readsAll_bulk (w1 := { w with phase := .bulk }) (w2 := { w with rem := .ofNat 6 len })
    (after := fun u => after { u with rem := .ofNat 6 (len % 32) })
    (readsBlock_g3MemBlk k m a) (.inr rfl) hend rfl rfl rfl (fun _ => hpos _) (fun _ => hrem _) rfl

/-- The generation-3 tail, with either cascade. -/
theorem readsRem_g3MemTail {m : Memory} {a : Discipline} {tail : WordSource BusStop → Nat → Quad → Except BusStop Quad}
    (htail : ∀ (w : Work) (rem : Nat) (q : Quad), PosAligned 8 a w.pos → rem ≤ 32 → w.pos.toNat + rem ≤ 2 ^ 64 →
      ReadsAll m w.pos.toNat rem (fun _ => True) (tail (memSource m a w) rem q)) :
    ReadsRem m 8 a (g3MemTail m a tail) := by
  intro w ha hrem hend
  refine (htail { w with phase := cascadeEntry 8 w.rem.toNat } w.rem.toNat w.acc ha hrem hend).conv
    (fun q hq _ => ?_) fun x hx => ?_
  · exact ⟨_, by simp only [g3MemTail, hq]; rfl, trivial⟩
  · exact ⟨x, by simp only [g3MemTail, hx]⟩

theorem readsFrom_g3Body (k : Config) (m : Memory) (a : Discipline) (seed len : U64) :
    ReadsFrom m 8 a len.toNat (g3Body k m a seed len) := fun w ha hend =>
  readsAll_bulk_bind (.inr rfl) ha hend
    (readsAll_g3Bulk k m a (w := { w with phase := .init, acc := uG3Init seed len }) hend (fun _ => rfl) fun _ => rfl)
    (readsRem_g3MemTail fun _ _ q => readsAll_g3Cascade _ _ _ _ q)

theorem readsFrom_g3xBody (k : Config) (m : Memory) (a : Discipline) (seed len : U64) :
    ReadsFrom m 8 a len.toNat (g3xBody k m a seed len) := fun w ha hend =>
  readsAll_bulk_bind (.inr rfl) ha hend
    (readsAll_g3Bulk k m a (w := { w with phase := .init, acc := uG3Init seed len }) hend (fun _ => rfl) fun _ => rfl)
    (readsRem_g3MemTail fun _ _ q => readsAll_g3Cascade _ _ _ _ q)

/-! ### The streaming hasher -/

theorem readsAll_memBytes_byte (m : Memory) (base j : Nat) :
    ReadsAll m (base + j) 1 (fun _ => True) ((memBytes m base).byte j) := by
  cases h : m.read (base + j) 1 with
  | ok bs =>
    rw [show (memBytes m base).byte j = .ok (bs.headD 0#8) by simp [memBytes, h, Except.map]]
    exact ⟨(Memory.read_ok m 1 h).2, trivial⟩
  | error x =>
    rw [show (memBytes m base).byte j = .error x by simp [memBytes, h, Except.map]]
    obtain ⟨i, hi, rfl, hu, -⟩ := Memory.read_error m 1 h
    exact fun hm => by simp [hm i hi] at hu

theorem readsAll_memBytes_word (m : Memory) (base j i : Nat) :
    ReadsAll m (base + j + 8 * i) 8 (fun _ => True) ((memBytes m base).word j i) :=
  (readsAll_uFetch m 8 .little (base + j + 8 * i)).conv
    (fun x hx _ => ⟨.ofNat 64 x, by simp [memBytes, hx, Except.map], trivial⟩)
    (fun x hx => ⟨x, by simp [memBytes, hx, Except.map]⟩)

theorem readsAll_copyIn (m : Memory) (base n : Nat) : ∀ (j dst : Nat) (x : Absorb),
    ReadsAll m (base + j) n (fun _ => True) (copyIn (memBytes m base) j dst n x) := by
  induction n with
  | zero => exact fun _ _ _ => readsAll_pure trivial
  | succ n ih =>
    intro j dst x
    have hrun : copyIn (memBytes m base) j dst (n + 1) x =
        ((memBytes m base).byte j).mapError (fun y => ⟨y, x⟩) >>= fun b => copyIn (memBytes m base) (j + 1) (dst + 1) n
          { x with ctx := { x.ctx with buf := x.ctx.buf.setIfInBounds dst b } } := by
      rw [copyIn]
      cases (memBytes m base).byte j <;> rfl
    rw [hrun, Nat.add_comm n]
    exact (readsAll_memBytes_byte m base j).mapError.bind fun b _ => ih (j + 1) (dst + 1) _

theorem readsAll_absorbFill (m : Memory) (base chunk : Nat) (x : Absorb) :
    ReadsAll m base chunk (fun _ => True) (absorbFill (memBytes m base) chunk x) :=
  (readsAll_copyIn m base chunk 0 x.ctx.fill.toNat { x with phase := .fillBuf }).conv
    (fun y hy _ => ⟨{ y with ctx := y.ctx.withFill (x.ctx.fill.toNat + chunk) }, by simp only [absorbFill, hy], trivial⟩)
    (fun y hy => ⟨y, by simp only [absorbFill, hy]⟩)

theorem readsAll_absorbDirect (k : Config) (m : Memory) (base n : Nat) : ∀ (j : Nat) (x : Absorb),
    ReadsAll m (base + j) (32 * n) (fun _ => True) (absorbDirect k (memBytes m base) j n x) := by
  induction n with
  | zero => exact fun _ _ => readsAll_pure trivial
  | succ n ih =>
    intro j x
    have hblock := readsAll_fourWords (W := 8) (f := fun w0 w1 w2 w3 => .ok (uG3Blk k x.ctx.acc w0 w1 w2 w3))
      (post := fun _ => True) (readsAll_memBytes_word m base j 0) (readsAll_memBytes_word m base j 1)
      (readsAll_memBytes_word m base j 2) (readsAll_memBytes_word m base j 3) fun _ _ _ _ => ⟨_, rfl, trivial⟩
    have hrun : absorbDirect k (memBytes m base) j (n + 1) x =
        (do let w0 ← (memBytes m base).word j 0
            let w1 ← (memBytes m base).word j 1
            let w2 ← (memBytes m base).word j 2
            let w3 ← (memBytes m base).word j 3
            .ok (uG3Blk k x.ctx.acc w0 w1 w2 w3) : Except Nat Quad).mapError (fun y => ⟨y, x⟩) >>= fun q =>
          absorbDirect k (memBytes m base) (j + 32) n { x with ctx := { x.ctx with acc := q } } := by
      rw [absorbDirect]
      split
      · next q hq => rw [hq]; rfl
      · next y hy => rw [hy]; rfl
    rw [hrun, Nat.mul_succ, Nat.add_comm (32 * n)]
    exact hblock.mapError.bind fun q _ => ih (j + 32) _

theorem readsAll_absorbStash (m : Memory) (base j n : Nat) (x : Absorb) :
    ReadsAll m (base + j) n (fun _ => True) (absorbStash (memBytes m base) j n x) := by
  by_cases hn : 0 < n
  · refine (readsAll_copyIn m base n j 0 { x with phase := .stash }).conv (fun y hy _ => ?_) fun y hy => ?_
    · exact ⟨{ y with ctx := y.ctx.withFill n }, by simp only [absorbStash, if_pos hn, hy], trivial⟩
    · exact ⟨y, by simp only [absorbStash, if_pos hn, hy]⟩
  · obtain rfl : n = 0 := by omega
    exact readsAll_pure trivial

theorem readsAll_absorbRest (k : Config) (m : Memory) (base j n : Nat) (x : Absorb) :
    ReadsAll m (base + j) (n - j) (fun _ => True) (absorbRest k (memBytes m base) j n x) := by
  have h : ReadsAll m (base + j) (32 * ((n - j) / 32) + (n - j - 32 * ((n - j) / 32))) (fun _ => True)
      (absorbRest k (memBytes m base) j n x) := by
    refine (readsAll_absorbDirect k m base ((n - j) / 32) j { x with phase := .direct }).bind fun y _ => ?_
    rw [Nat.add_assoc]
    exact readsAll_absorbStash m base _ _ y
  rwa [show 32 * ((n - j) / 32) + (n - j - 32 * ((n - j) / 32)) = n - j by omega] at h

/-- `uABSORB` over memory reads its whole input and nothing else (R83, R243). -/
theorem readsAll_uAbsorb (k : Config) (m : Memory) (base n : Nat) (x : Absorb) :
    ReadsAll m base n (fun _ => True) (uAbsorb k (memBytes m base) n x) := by
  by_cases hfill : x.ctx.fill.toNat = 0
  · rw [uAbsorb, if_neg (not_not_intro hfill)]
    exact readsAll_absorbRest k m base 0 n x
  · have hrun : uAbsorb k (memBytes m base) n x =
        absorbFill (memBytes m base) (min (32 - x.ctx.fill.toNat) n) x >>= fun y =>
          if x.ctx.fill.toNat + min (32 - x.ctx.fill.toNat) n < 32 then .ok y
          else absorbRest k (memBytes m base) (min (32 - x.ctx.fill.toNat) n) n (absorbDrain k y) := by
      rw [uAbsorb, if_pos hfill]
      dsimp only
      cases absorbFill (memBytes m base) (min (32 - x.ctx.fill.toNat) n) x <;> rfl
    have h : ReadsAll m base (min (32 - x.ctx.fill.toNat) n + (n - min (32 - x.ctx.fill.toNat) n)) (fun _ => True)
        (uAbsorb k (memBytes m base) n x) := by
      rw [hrun]
      refine (readsAll_absorbFill m base _ x).bind fun y _ => ?_
      split
      · rw [show n - min (32 - x.ctx.fill.toNat) n = 0 by omega]
        exact readsAll_pure trivial
      · exact readsAll_absorbRest k m base _ n (absorbDrain k y)
    rwa [show min (32 - x.ctx.fill.toNat) n + (n - min (32 - x.ctx.fill.toNat) n) = n by omega] at h

end Sys2Proof.Machine
end

section
/-! PROOFS. What the body of a command can do (spec/60_exceptions.md R299, orders 5 to 9): the first of its checks that fails
decides the error and what is written before it; a command that passes them all completes or ends in a bus error. -/

namespace Sys2Proof.Machine

open Sys2Proof

/-! ### The body of each command -/

/-- What a command does once its write has passed orders 1 to 4 of R299. -/
def commandBody : Instr → State → Except Raise State
  | .nop => .ok
  | .clrerr => fun s => .ok s.clearError
  | .hash0 e a => hash0Body e a
  | .hash1 e a => hash1Body e a
  | .hash2 e a => hash2Body e a
  | .hash3 a => hash3Body a
  | .hash3x a => hash3xBody a
  | .sinit => sinitBody
  | .supd => supdBody
  | .sfin => sfinBody
  | .sfinx => sfinxBody
  | .ainit => ainitBody
  | .awrite e a => awriteBody e a
  | .afin => afinBody

theorem exec_eq_commandBody (i : Instr) (s : State) : exec i s = .next (runCommand i (commandBody i) s) := by
  cases i <;> rfl

/-! ### The errors before the first read -/

/-- The errors of R299, orders 5 to 8, each with the checks that precede it passed: `State.violation` as a relation. -/
inductive State.Violates (s : State) (i : Instr) : ErrCode → U64 → Prop
  | stream (hi : i.needsLive = true) (hs : s.stream.sstate ≠ .live) :
    s.Violates i .stream (s.stream.sstate.code.setWidth 64)
  | adapt (hi : i.needsAdapter = true) (ha : s.avalid = false) : s.Violates i .adapt 0#64
  | engine (ha : i.needsAdapter = true → s.avalid = true) (hi : i.dispatched = true)
    (hp : s.resolved.present = false) : s.Violates i .engine ((selWord (some s.resolved)).setWidth 64)
  | align (W : Nat) (ha : i.needsAdapter = true → s.avalid = true)
    (hp : i.dispatched = true → s.resolved.present = true) (hr : s.reads i = some (W, .aligned))
    (hm : s.addr.toNat % W ≠ 0) : s.Violates i .align s.addr
  | range (W : Nat) (a : Discipline) (hl : i.needsLive = true → s.stream.sstate = .live)
    (ha : i.needsAdapter = true → s.avalid = true) (hp : i.dispatched = true → s.resolved.present = true)
    (hr : s.reads i = some (W, a)) (hm : s.Aligned W a) (ho : 2 ^ 64 < s.addr.toNat + s.len.toNat) :
    s.Violates i .range s.addr

theorem needsLive_cases {i : Instr} (h : i.needsLive = true) : i = .supd ∨ i = .sfin ∨ i = .sfinx := by
  cases i <;> simp_all [Instr.needsLive]

theorem needsAdapter_eq_false_of_needsLive {i : Instr} (h : i.needsLive = true) : i.needsAdapter = false := by
  obtain rfl | rfl | rfl := needsLive_cases h <;> rfl

theorem dispatched_eq_false_of_needsLive {i : Instr} (h : i.needsLive = true) : i.dispatched = false := by
  obtain rfl | rfl | rfl := needsLive_cases h <;> rfl

theorem State.reads_ne_aligned_of_needsLive {i : Instr} (h : i.needsLive = true) (s : State) (W : Nat) :
    s.reads i ≠ some (W, .aligned) := by
  obtain rfl | rfl | rfl := needsLive_cases h <;> simp [State.reads]

theorem State.violation_of_violates {s : State} {i : Instr} {e : ErrCode} {info : U64} (h : s.Violates i e info) :
    s.violation i = some (e, info) := by
  cases h with
  | stream hi hs => exact if_pos ⟨hi, hs⟩
  | adapt hi ha =>
    have hl : i.needsLive ≠ true := fun hl => by simp [needsAdapter_eq_false_of_needsLive hl] at hi
    rw [State.violation, if_neg fun h => hl h.1, if_pos ⟨hi, ha⟩]
  | engine ha hi hp =>
    have hl : i.needsLive ≠ true := fun hl => by simp [dispatched_eq_false_of_needsLive hl] at hi
    rw [State.violation, if_neg fun h => hl h.1, if_neg fun h => by simp [ha h.1] at h, if_pos ⟨hi, hp⟩]
  | align W ha hp hr hm =>
    have hl : i.needsLive ≠ true := fun hl => s.reads_ne_aligned_of_needsLive hl W hr
    rw [State.violation, if_neg fun h => hl h.1, if_neg fun h => by simp [ha h.1] at h,
      if_neg fun h => by simp [hp h.1] at h, hr]
    exact if_pos ⟨rfl, hm⟩
  | range W a hl ha hp hr hm ho =>
    rw [State.violation, if_neg fun h => h.2 (hl h.1), if_neg fun h => by simp [ha h.1] at h,
      if_neg fun h => by simp [hp h.1] at h, hr]
    exact (if_neg fun h => h.2 (hm h.1)).trans (if_pos ho)

/-- A command that passes every check before its first read (R299, orders 5 to 8). -/
structure State.Passes (s : State) (i : Instr) : Prop where
  live : i.needsLive = true → s.stream.sstate = .live
  adapter : i.needsAdapter = true → s.avalid = true
  present : i.dispatched = true → s.resolved.present = true
  aligned : ∀ W a, s.reads i = some (W, a) → s.Aligned W a
  inRange : ∀ W a, s.reads i = some (W, a) → s.InRange

theorem State.violates_or_passes (s : State) (i : Instr) : (∃ e info, s.Violates i e info) ∨ s.Passes i := by
  by_cases hl : i.needsLive = true → s.stream.sstate = .live
  swap
  · obtain ⟨hi, hs⟩ := Classical.not_imp.1 hl
    exact .inl ⟨_, _, .stream hi hs⟩
  by_cases ha : i.needsAdapter = true → s.avalid = true
  swap
  · obtain ⟨hi, hs⟩ := Classical.not_imp.1 ha
    exact .inl ⟨_, _, .adapt hi (by simpa using hs)⟩
  by_cases hp : i.dispatched = true → s.resolved.present = true
  swap
  · obtain ⟨hi, hs⟩ := Classical.not_imp.1 hp
    exact .inl ⟨_, _, .engine ha hi (by simpa using hs)⟩
  by_cases hm : ∀ W a, s.reads i = some (W, a) → s.Aligned W a
  swap
  · push Not at hm
    obtain ⟨W, a, hr, rfl, hm⟩ := hm
    exact .inl ⟨_, _, .align W ha hp hr hm⟩
  by_cases ho : ∀ W a, s.reads i = some (W, a) → s.InRange
  swap
  · push Not at ho
    obtain ⟨W, a, hr, ho⟩ := ho
    exact .inl ⟨_, _, .range W a hl ha hp hr (hm W a hr) ho⟩
  exact .inr ⟨hl, ha, hp, hm, ho⟩

theorem State.violates_of_violation {s : State} {i : Instr} {e : ErrCode} {info : U64}
    (h : s.violation i = some (e, info)) : s.Violates i e info := by
  obtain ⟨e', info', h'⟩ | hpass := s.violates_or_passes i
  · obtain ⟨rfl, rfl⟩ : e' = e ∧ info' = info := by simpa using (violation_of_violates h').symm.trans h
    exact h'
  · rw [State.violation, if_neg fun h => h.2 (hpass.live h.1), if_neg fun h => by simp [hpass.adapter h.1] at h,
      if_neg fun h => by simp [hpass.present h.1] at h] at h
    cases hr : s.reads i with
    | none => simp [hr] at h
    | some Wa =>
      obtain ⟨W, a⟩ := Wa
      have hrange := hpass.inRange W a hr
      simp only [hr] at h
      rw [if_neg fun h => h.2 (hpass.aligned W a hr h.1), if_neg (by omega)] at h
      cases h

theorem State.violation_eq_some_iff {s : State} {i : Instr} {e : ErrCode} {info : U64} :
    s.violation i = some (e, info) ↔ s.Violates i e info := ⟨violates_of_violation, violation_of_violates⟩

theorem State.passes_of_violation_eq_none {s : State} {i : Instr} (h : s.violation i = none) : s.Passes i := by
  obtain ⟨e, info, h'⟩ | hpass := s.violates_or_passes i
  · simp [violation_of_violates h'] at h
  · exact hpass

/-! ### The one-shot frame of the memory-reading commands -/

/-- The state a command has reached when it has resolved `SEL`, if it does (R271). -/
def State.checked (s : State) (i : Instr) : State := { s with sel := s.selAfter i }

theorem State.checked_of_not_dispatched {i : Instr} (h : i.dispatched = false) (s : State) : s.checked i = s := by
  simp [State.checked, State.selAfter, h]

theorem State.checked_of_no_adapter {s : State} {i : Instr} (hi : i.needsAdapter = true) (ha : s.avalid = false) :
    s.checked i = s := by
  have hsel : s.selAfter i = s.sel := if_neg fun h => h.2 ⟨hi, ha⟩
  rw [State.checked, hsel]

theorem State.selAfter_of_dispatched {s : State} {i : Instr} (hi : i.dispatched = true)
    (ha : i.needsAdapter = true → s.avalid = true) : s.selAfter i = some s.resolved :=
  if_pos ⟨hi, fun h => by simp [ha h.1] at h⟩

theorem uResolve_eq_checked {i : Instr} {s : State} (hi : i.dispatched = true)
    (ha : i.needsAdapter = true → s.avalid = true) : uResolve s = (s.checked i, s.resolved) := by
  rw [uResolve_eq, State.checked, State.selAfter_of_dispatched hi ha]
  rfl

/-- `HASH0` and `AWRITE`, once `AWRITE` has its adapter. -/
theorem commandBody_of_dispatched {i : Instr} {s : State} (hi : i.dispatched = true)
    (ha : i.needsAdapter = true → s.avalid = true) :
    ∃ (e : Endian) (a : Discipline) (seed : U64) (g : State × U64 → State),
      s.reads i = some (s.resolved.wordSize, a) ∧
      commandBody i s = uBody0 s.resolved e a seed (s.checked i) >>= fun x => .ok (g x) := by
  have hresolve := uResolve_eq_checked hi ha
  cases i with
  | hash0 e a =>
    refine ⟨e, a, s.seedX, fun x => x.1.withResult 0#64 x.2, rfl, ?_⟩
    rw [show commandBody (.hash0 e a) s = hash0Body e a s from rfl, hash0Body, hresolve]
  | awrite e a =>
    refine ⟨e, a, s.astate, fun x => x.1.withAstate x.2, rfl, ?_⟩
    rw [show commandBody (.awrite e a) s = awriteBody e a s from rfl, awriteBody, needAdapter, if_pos (ha rfl), hresolve]
  | _ => cases hi

theorem commandBody_of_needsLive {i : Instr} (hi : i.needsLive = true) (s : State) :
    ∃ k, commandBody i s = needLive s k := by
  obtain rfl | rfl | rfl := needsLive_cases hi
  · exact ⟨_, by rw [commandBody, supdBody]⟩
  · exact ⟨_, by rw [commandBody, sfinBody]⟩
  · exact ⟨_, by rw [commandBody, sfinxBody]⟩

theorem commandBody_of_needsAdapter {i : Instr} (hi : i.needsAdapter = true) (s : State) :
    ∃ k, commandBody i s = needAdapter s k := by
  cases i with
  | awrite e a => exact ⟨_, by rw [commandBody, awriteBody]⟩
  | afin => exact ⟨_, by rw [commandBody, afinBody]⟩
  | _ => cases hi

theorem uBody0_of_absent {impl : Impl} (h : impl.present = false) (e : Endian) (a : Discipline) (seed : U64) (s : State) :
    uBody0 impl e a seed s = .error ⟨.engine, (selWord s.sel).setWidth 64, s⟩ := by
  cases impl with
  | gen1 | gen2 => cases h
  | narrowRound | narrowSimd | wideSimd => rfl

/-- A run is the one-shot frame around a body that reads the input, and then an answer from the state the frame leaves. -/
def IsOneShot {α : Type} (W : Nat) (a : Discipline) (s : State) (r : Except Raise α) : Prop :=
  ∃ (body : Work → Except BusStop Work) (g : State → α),
    ReadsFrom s.mem W a s.len.toNat body ∧ r = oneShot W a body s >>= fun t => .ok (g t)

theorem IsOneShot.bind_ok {α β : Type} {W : Nat} {a : Discipline} {s : State} {r : Except Raise α}
    (h : IsOneShot W a s r) (f : α → β) : IsOneShot W a s (r >>= fun x => .ok (f x)) := by
  obtain ⟨body, g, hbody, rfl⟩ := h
  refine ⟨body, fun t => f (g t), hbody, ?_⟩
  cases oneShot W a body s <;> rfl

theorem uBody0_isOneShot {impl : Impl} (h : impl.present = true) (e : Endian) (a : Discipline) (seed : U64) (s : State) :
    IsOneShot impl.wordSize a s (uBody0 impl e a seed s) := by
  cases impl with
  | gen1 => exact ⟨_, fun t => (t, g1Digest t.cfg t.work), readsFrom_g1Body s.cfg s.mem e a seed s.len, rfl⟩
  | gen2 => exact ⟨_, fun t => (t, g2Digest t.cfg t.work), readsFrom_g2Body s.cfg s.mem e a seed s.len, rfl⟩
  | narrowRound | narrowSimd | wideSimd => cases h

/-- Every memory-reading command but `SUPD`, once it has its adapter and its body. -/
theorem commandBody_isOneShot {i : Instr} {s : State} {W : Nat} {a : Discipline} (hr : s.reads i = some (W, a))
    (hi : i ≠ .supd) (ha : i.needsAdapter = true → s.avalid = true)
    (hp : i.dispatched = true → s.resolved.present = true) : IsOneShot W a (s.checked i) (commandBody i s) := by
  have hw {j : Instr} (hj : j.dispatched = false) : s.checked j = s := s.checked_of_not_dispatched hj
  cases i with
  | supd => exact absurd rfl hi
  | nop | clrerr | sinit | sfin | sfinx | ainit | afin => cases hr
  | hash1 e a' =>
    cases hr
    rw [hw rfl]
    exact ⟨_, _, readsFrom_g1Body s.cfg s.mem e a s.seedX s.len, rfl⟩
  | hash2 e a' =>
    cases hr
    rw [hw rfl]
    exact ⟨_, _, readsFrom_g2Body s.cfg s.mem e a s.seedX s.len, rfl⟩
  | hash3 a' =>
    cases hr
    rw [hw rfl]
    exact ⟨_, _, readsFrom_g3Body s.cfg s.mem a s.seedX s.len, rfl⟩
  | hash3x a' =>
    cases hr
    rw [hw rfl]
    exact ⟨_, _, readsFrom_g3xBody s.cfg s.mem a s.seedX s.len, rfl⟩
  | hash0 | awrite =>
    obtain ⟨e, a', seed, g, hr', hbody⟩ := commandBody_of_dispatched rfl ha
    obtain ⟨rfl, rfl⟩ : W = s.resolved.wordSize ∧ a = a' := by simpa using hr.symm.trans hr'
    rw [hbody]
    exact (uBody0_isOneShot (hp rfl) e a seed _).bind_ok g

/-! ### The first check that fails -/

theorem needLive_of_not_live {s : State} (h : s.stream.sstate ≠ .live) (k : State → Except Raise State) :
    needLive s k = .error ⟨.stream, s.stream.sstate.code.setWidth 64, s⟩ := if_neg h

theorem needAdapter_of_none {s : State} (h : s.avalid = false) (k : State → Except Raise State) :
    needAdapter s k = .error ⟨.adapt, 0#64, s⟩ := by
  simp [needAdapter, h]

theorem IsOneShot.of_misaligned {α : Type} {W : Nat} {a : Discipline} {s : State} {r : Except Raise α}
    (h : IsOneShot W a s r) (hm : s.misaligned W a = true) : r = .error ⟨.align, s.addr, s⟩ := by
  obtain ⟨body, g, -, rfl⟩ := h
  rw [oneShot, if_pos hm]
  rfl

theorem IsOneShot.of_outOfRange {α : Type} {W : Nat} {a : Discipline} {s : State} {r : Except Raise α}
    (h : IsOneShot W a s r) (hm : s.Aligned W a) (ho : s.outOfRange = true) : r = .error ⟨.range, s.addr, s⟩ := by
  obtain ⟨body, g, -, rfl⟩ := h
  have hal : ¬ s.misaligned W a = true := fun h => ((misaligned_iff s W a).1 h).2 (hm ((misaligned_iff s W a).1 h).1)
  rw [oneShot, if_neg hal, if_pos ho]
  rfl

/-- The error of R299, with nothing written before it but `SEL`. -/
theorem commandBody_of_violates {i : Instr} {s : State} {e : ErrCode} {info : U64} (h : s.Violates i e info) :
    commandBody i s = .error ⟨e, info, s.checked i⟩ := by
  cases h with
  | stream hi hs =>
    rw [s.checked_of_not_dispatched (dispatched_eq_false_of_needsLive hi)]
    obtain ⟨k, hbody⟩ := commandBody_of_needsLive hi s
    rw [hbody, needLive_of_not_live hs]
  | adapt hi ha =>
    obtain ⟨k, hbody⟩ := commandBody_of_needsAdapter hi s
    rw [State.checked_of_no_adapter hi ha, hbody, needAdapter_of_none ha]
  | engine ha hi hp =>
    obtain ⟨e, a, seed, g, -, hbody⟩ := commandBody_of_dispatched hi ha
    have hsel : (s.checked i).sel = some s.resolved := State.selAfter_of_dispatched hi ha
    rw [hbody, uBody0_of_absent hp, hsel]
    rfl
  | align W ha hp hr hm =>
    have hi : i ≠ .supd := by
      rintro rfl
      exact s.reads_ne_aligned_of_needsLive rfl W hr
    exact (commandBody_isOneShot hr hi ha hp).of_misaligned ((misaligned_iff _ W .aligned).2 ⟨rfl, hm⟩)
  | range W a hl ha hp hr hm ho =>
    have hout := (outOfRange_iff (s.checked i)).2 ho
    by_cases hi : i = .supd
    · subst hi
      have hbody : commandBody .supd s = supdBody s := rfl
      have hout' : s.outOfRange = true := hout
      rw [hbody, supdBody, needLive, if_pos (hl rfl), if_pos hout', s.checked_of_not_dispatched rfl]
    · exact (commandBody_isOneShot hr hi ha hp).of_outOfRange hm hout

/-! ### A command that passes its checks -/

/-- A run that gets through exactly if `P`, and otherwise ends in a bus error. -/
def Attempt {α : Type} (P : Prop) : Except Raise α → Prop
  | .ok _ => P
  | .error r => r.code = .bus ∧ ¬ P

theorem Attempt.bind_ok {α β : Type} {P : Prop} {r : Except Raise α} (h : Attempt P r) (f : α → β) :
    Attempt P (r >>= fun x => .ok (f x)) := by
  cases r <;> exact h

theorem IsOneShot.attempt {α : Type} {W : Nat} {a : Discipline} {s : State} {r : Except Raise α}
    (h : IsOneShot W a s r) (hm : s.Aligned W a) (ho : s.InRange) : Attempt s.InputMapped r := by
  obtain ⟨body, g, hbody, rfl⟩ := h
  refine Attempt.bind_ok ?_ g
  have hreads := hbody { s.work with pos := s.addr } hm ho
  obtain ⟨hmis, -⟩ | ⟨-, hout, -⟩ | ⟨-, -, ⟨w, hw, h⟩ | ⟨x, hx, h⟩⟩ := oneShot_cases W a body s
  · obtain ⟨rfl, hne⟩ := (misaligned_iff s W a).1 hmis
    exact absurd (hm rfl) hne
  · have := (outOfRange_iff s).1 hout
    omega
  · rw [h]
    rw [hw] at hreads
    exact hreads.1
  · rw [h]
    rw [hx] at hreads
    exact ⟨rfl, hreads⟩

theorem supdBody_attempt {s : State} (hl : s.stream.sstate = .live) (ho : s.InRange) :
    Attempt s.InputMapped (supdBody s) := by
  have hout : ¬ s.outOfRange = true := fun h => by
    have := (outOfRange_iff s).1 h
    omega
  have hreads := readsAll_uAbsorb s.cfg s.mem s.addr.toNat s.len.toNat
    (s.withWork { s.work with pos := s.addr }).absorbing
  rw [supdBody, needLive, if_pos hl, if_neg hout]
  dsimp only [State.withWork_cfg, State.withWork_mem, State.withWork_addr, State.withWork_len]
  cases hx : uAbsorb s.cfg (memBytes s.mem s.addr.toNat) s.len.toNat
    (s.withWork { s.work with pos := s.addr }).absorbing with
  | ok x =>
    rw [hx] at hreads
    exact hreads.1
  | error y =>
    rw [hx] at hreads
    exact ⟨rfl, hreads⟩

/-- Order 9 of R299: with every check passed, only an unmapped page with an input byte is in the way. -/
theorem commandBody_attempt {i : Instr} {s : State} (h : s.Passes i) :
    Attempt ((s.reads i).isSome = true → s.InputMapped) (commandBody i s) := by
  cases hr : s.reads i with
  | some Wa =>
    obtain ⟨W, a⟩ := Wa
    have hm := h.aligned W a hr
    have ho := h.inRange W a hr
    simp only [Option.isSome_some, forall_const]
    by_cases hi : i = .supd
    · subst hi
      exact supdBody_attempt (h.live rfl) ho
    · exact (commandBody_isOneShot hr hi h.adapter h.present).attempt hm ho
  | none =>
    have hok : ∃ t, commandBody i s = .ok t := by
      cases i with
      | nop | clrerr | sinit | ainit => exact ⟨_, rfl⟩
      | sfin | sfinx => exact ⟨_, if_pos (h.live rfl)⟩
      | afin => exact ⟨_, afinBody_of_avalid (h.adapter rfl)⟩
      | hash0 | hash1 | hash2 | hash3 | hash3x | supd | awrite => cases hr
    obtain ⟨t, ht⟩ := hok
    rw [ht]
    exact fun h => by cases h

/-- The errors a body can raise. -/
theorem commandBody_error {i : Instr} {s : State} {r : Raise} (h : commandBody i s = .error r) :
    s.Violates i r.code r.info ∨ r.code = .bus := by
  obtain ⟨e, info, hv⟩ | hpass := s.violates_or_passes i
  · obtain rfl : _ = r := by simpa [commandBody_of_violates hv] using h
    exact .inl hv
  · have hattempt := commandBody_attempt hpass
    rw [h] at hattempt
    exact .inr hattempt.1

end Sys2Proof.Machine
end

section
/-! PROOFS. What the bodies of the commands leave alone besides what they are given (spec/10_state.md R48, R53,
spec/60_exceptions.md R303): the error registers but for `CLRERR`, `AVALID` but for `AINIT`, and `FILL` below 32. -/

namespace Sys2Proof.Machine

open Sys2Proof

/-! ### Invariant I-FILL through `uABSORB` (R48, R242) -/

/-- The context in which a part of `uABSORB` ends, at its end or at a failing read, satisfies `P`. -/
def AbsorbEndsIn {ε : Type} (P : Stream → Prop) : Except (AbsorbStop ε) Absorb → Prop
  | .ok x => P x.ctx
  | .error y => P y.at_.ctx

theorem AbsorbEndsIn.bind {ε : Type} {P : Stream → Prop} {r : Except (AbsorbStop ε) Absorb}
    {f : Absorb → Except (AbsorbStop ε) Absorb} (h : AbsorbEndsIn P r)
    (hf : ∀ x, P x.ctx → AbsorbEndsIn P (f x)) : AbsorbEndsIn P (r >>= f) := by
  cases r with
  | ok x => exact hf x h
  | error y => exact h

/-- Fewer than 32 bytes are pending (I-FILL). -/
abbrev Stream.FillBelow (c : Stream) : Prop := c.fill.toNat < 32

theorem Stream.withFill_fillBelow {n : Nat} (h : n < 32) (c : Stream) : (c.withFill n).FillBelow := by
  show (BitVec.ofNat 6 n).toNat < 32
  rw [BitVec.toNat_ofNat]
  omega

section
variable {ε : Type} (k : Config) (src : ByteSource ε) {x : Absorb}

theorem copyIn_fillBelow (j dst n : Nat) (h : x.ctx.FillBelow) : AbsorbEndsIn Stream.FillBelow (copyIn src j dst n x) := by
  have hcounts := copyIn_counts src n j dst x
  cases hr : copyIn src j dst n x with
  | ok y =>
    rw [hr] at hcounts
    obtain ⟨-, hfill, -⟩ := hcounts
    show y.ctx.fill.toNat < 32
    rwa [hfill]
  | error y =>
    rw [hr] at hcounts
    obtain ⟨-, hfill, -⟩ := hcounts
    show y.at_.ctx.fill.toNat < 32
    rwa [hfill]

theorem absorbDirect_fillBelow (j n : Nat) (h : x.ctx.FillBelow) :
    AbsorbEndsIn Stream.FillBelow (absorbDirect k src j n x) := by
  have hcounts := absorbDirect_counts k src n j x
  cases hr : absorbDirect k src j n x with
  | ok y =>
    rw [hr] at hcounts
    obtain ⟨-, hfill, -⟩ := hcounts
    show y.ctx.fill.toNat < 32
    rwa [hfill]
  | error y =>
    rw [hr] at hcounts
    obtain ⟨-, hfill, -⟩ := hcounts
    show y.at_.ctx.fill.toNat < 32
    rwa [hfill]

theorem absorbStash_fillBelow {n : Nat} (j : Nat) (hn : n < 32) (h : x.ctx.FillBelow) :
    AbsorbEndsIn Stream.FillBelow (absorbStash src j n x) := by
  have hcopy := copyIn_fillBelow src j 0 n (x := { x with phase := .stash }) h
  unfold absorbStash
  split
  · cases hr : copyIn src j 0 n { x with phase := .stash } with
    | ok y => exact y.ctx.withFill_fillBelow hn
    | error y =>
      rw [hr] at hcopy
      exact hcopy
  · exact h

theorem absorbRest_fillBelow (j n : Nat) (h : x.ctx.FillBelow) :
    AbsorbEndsIn Stream.FillBelow (absorbRest k src j n x) :=
  (absorbDirect_fillBelow k src j ((n - j) / 32) (x := { x with phase := .direct }) h).bind
    fun _ hy => absorbStash_fillBelow src _ (by omega) hy

/-- A full buffer is drained within the run, so I-FILL holds at its end. -/
theorem uAbsorb_fillBelow (n : Nat) (h : x.ctx.FillBelow) : AbsorbEndsIn Stream.FillBelow (uAbsorb k src n x) := by
  unfold uAbsorb
  dsimp only
  split
  · unfold absorbFill
    dsimp only
    have hcopy := copyIn_fillBelow src 0 x.ctx.fill.toNat (min (32 - x.ctx.fill.toNat) n)
      (x := { x with phase := .fillBuf }) h
    cases hr : copyIn src 0 x.ctx.fill.toNat (min (32 - x.ctx.fill.toNat) n) { x with phase := .fillBuf } with
    | error y =>
      rw [hr] at hcopy
      exact hcopy
    | ok y =>
      dsimp only
      split
      · next hlt => exact y.ctx.withFill_fillBelow hlt
      · exact absorbRest_fillBelow k src _ n (show (0#6).toNat < 32 by decide)
  · exact absorbRest_fillBelow k src 0 n h

end

theorem absorbMarker_fillBelow (k : Config) {x : Absorb} (h : x.ctx.FillBelow) : (absorbMarker k x).ctx.FillBelow := by
  have hrun := uAbsorb_fillBelow k (constBytes (uMarker x.ctx.total)) 8 h
  unfold absorbMarker
  cases hr : uAbsorb k (constBytes (uMarker x.ctx.total)) 8 x with
  | ok y =>
    rw [hr] at hrun
    exact hrun
  | error y => exact y.why.elim

/-! ### What a body keeps -/

/-- A property that the writes of the bodies keep: any write of the working bank, the result registers, `SEL` and `ASTATE`,
and a write of the streaming hasher that keeps I-FILL. The writes of the error registers and of `AVALID` are left out. -/
structure KeptByBodies (P : State → Prop) : Prop where
  work : ∀ {s : State} (w : Work), P s → P (s.withWork w)
  result : ∀ {s : State} (hi lo : U64), P s → P (s.withResult hi lo)
  sel : ∀ {s : State} (x : Option Impl), P s → P { s with sel := x }
  astate : ∀ {s : State} (v : U64), P s → P (s.withAstate v)
  stream : ∀ {s : State} (c : Stream), (s.stream.FillBelow → c.FillBelow) → P s → P (s.withStream c)

section
variable {P : State → Prop} (hP : KeptByBodies P) {s : State} (hs : P s)
include hP hs

theorem oneShot_keeps (W : Nat) (a : Discipline) (body : Work → Except BusStop Work) :
    EndsIn P id (oneShot W a body s) := by
  obtain ⟨-, h⟩ | ⟨-, -, h⟩ | ⟨-, -, ⟨w, -, h⟩ | ⟨x, -, h⟩⟩ := oneShot_cases W a body s <;> rw [h]
  · exact hs
  · exact hs
  · exact hP.work w hs
  · exact hP.work x.work hs

theorem oneShot_bind_withResult_keeps (W : Nat) (a : Discipline) (body : Work → Except BusStop Work) (hi lo : State → U64) :
    EndsIn P id (oneShot W a body s >>= fun t => .ok (t.withResult (hi t) (lo t))) :=
  (oneShot_keeps hP hs W a body).bind fun t ht => hP.result (hi t) (lo t) ht

theorem uBody0_keeps (impl : Impl) (e : Endian) (a : Discipline) (seed : U64) :
    EndsIn P Prod.fst (uBody0 impl e a seed s) := by
  cases impl with
  | gen1 => exact (oneShot_keeps hP hs _ _ _).bind fun _ ht => ht
  | gen2 => exact (oneShot_keeps hP hs _ _ _).bind fun _ ht => ht
  | narrowRound => exact hs
  | narrowSimd => exact hs
  | wideSimd => exact hs

theorem uBody0_uResolve_keeps (e : Endian) (a : Discipline) (seed : U64) :
    EndsIn P Prod.fst (uBody0 (uResolve s).2 e a seed (uResolve s).1) := by
  rw [uResolve_eq]
  exact uBody0_keeps hP (hP.sel _ hs) _ e a seed

theorem hash0Body_keeps (e : Endian) (a : Discipline) : EndsIn P id (hash0Body e a s) :=
  (uBody0_uResolve_keeps hP hs e a s.seedX).bind fun x hx => hP.result 0#64 x.2 hx

theorem awriteBody_keeps (e : Endian) (a : Discipline) : EndsIn P id (awriteBody e a s) :=
  endsIn_needAdapter hs ((uBody0_uResolve_keeps hP hs e a s.astate).bind fun x hx => hP.astate x.2 hx)

theorem afinBody_keeps : EndsIn P id (afinBody s) := endsIn_needAdapter hs (hP.result 0#64 s.astate hs)

theorem withAbsorbed_keeps (x : Absorb) (hx : s.stream.FillBelow → x.ctx.FillBelow) : P (s.withAbsorbed x) :=
  hP.stream (s := s.withWork { s.work with phase := x.phase }) x.ctx hx (hP.work _ hs)

theorem supdBody_keeps : EndsIn P id (supdBody s) := by
  refine endsIn_needLive hs ?_
  have hpos : P (s.withWork { s.work with pos := s.addr }) := hP.work _ hs
  have hrun : s.stream.FillBelow → AbsorbEndsIn Stream.FillBelow (uAbsorb s.cfg (memBytes s.mem s.addr.toNat) s.len.toNat
      (s.withWork { s.work with pos := s.addr }).absorbing) :=
    uAbsorb_fillBelow s.cfg _ _ (x := (s.withWork { s.work with pos := s.addr }).absorbing)
  dsimp only [State.withWork_cfg, State.withWork_mem, State.withWork_addr, State.withWork_len]
  split
  · exact hs
  · cases hx : uAbsorb s.cfg (memBytes s.mem s.addr.toNat) s.len.toNat
      (s.withWork { s.work with pos := s.addr }).absorbing <;> rw [hx] at hrun
    · exact withAbsorbed_keeps hP hpos _ hrun
    · exact withAbsorbed_keeps hP hpos _ hrun

/-- The two finishing commands. -/
theorem finish_keeps (hi lo : U64) :
    P ((s.withAbsorbed { absorbMarker s.cfg s.absorbing with
      ctx := { (absorbMarker s.cfg s.absorbing).ctx with sstate := .done } }).withResult hi lo) :=
  hP.result hi lo (withAbsorbed_keeps hP hs _ fun h => absorbMarker_fillBelow s.cfg (x := s.absorbing) h)

theorem sfinBody_keeps : EndsIn P id (sfinBody s) := endsIn_needLive hs (finish_keeps hP hs _ _)

theorem sfinxBody_keeps : EndsIn P id (sfinxBody s) := endsIn_needLive hs (finish_keeps hP hs _ _)

/-- Every body ends in a state that satisfies such a property, at its end or where it raises an error. -/
theorem commandBody_keeps {i : Instr} (hclr : i = .clrerr → P s.clearError)
    (hadapt : i = .ainit → P (s.withAdapter s.seedX)) : EndsIn P id (commandBody i s) := by
  cases i with
  | nop => exact hs
  | clrerr => exact hclr rfl
  | hash0 e a => exact hash0Body_keeps hP hs e a
  | hash1 e a => exact oneShot_bind_withResult_keeps hP hs _ _ _ _ _
  | hash2 e a => exact oneShot_bind_withResult_keeps hP hs _ _ _ _ _
  | hash3 a => exact oneShot_bind_withResult_keeps hP hs _ _ _ _ _
  | hash3x a => exact oneShot_bind_withResult_keeps hP hs _ _ _ _ _
  | sinit => exact hP.stream _ (fun _ => show (0#6).toNat < 32 by decide) hs
  | supd => exact supdBody_keeps hP hs
  | sfin => exact sfinBody_keeps hP hs
  | sfinx => exact sfinxBody_keeps hP hs
  | ainit => exact hadapt rfl
  | awrite e a => exact awriteBody_keeps hP hs e a
  | afin => exact afinBody_keeps hP hs

end

/-! ### The properties that are kept -/

theorem keptByBodies_err (e : ErrCode) : KeptByBodies fun t => t.err = e :=
  ⟨fun _ h => h, fun _ _ h => h, fun _ h => h, fun _ h => h, fun _ _ h => h⟩

theorem keptByBodies_cmd (w : BitVec 32) : KeptByBodies fun t => t.cmd = w :=
  ⟨fun _ h => h, fun _ _ h => h, fun _ h => h, fun _ h => h, fun _ _ h => h⟩

theorem keptByBodies_avalid (b : Bool) : KeptByBodies fun t => t.avalid = b :=
  ⟨fun _ h => h, fun _ _ h => h, fun _ h => h, fun _ h => h, fun _ _ h => h⟩

/-- The core runs, no fatal error is recorded, and I-FILL holds: what R298 says of every state reachable from reset. -/
structure State.Sound (s : State) : Prop where
  running : s.halt = false
  notFatal : s.err ≠ .fatal
  fill : s.stream.FillBelow

theorem keptByBodies_sound : KeptByBodies State.Sound where
  work _ h := ⟨h.running, h.notFatal, h.fill⟩
  result _ _ h := ⟨h.running, h.notFatal, h.fill⟩
  sel _ h := ⟨h.running, h.notFatal, h.fill⟩
  astate _ h := ⟨h.running, h.notFatal, h.fill⟩
  stream _ hc h := ⟨h.running, h.notFatal, hc h.fill⟩

end Sys2Proof.Machine
end

section
/-! PROOFS. What a write to `CMD` can do, by orders 1 to 4 of spec/60_exceptions.md R299, and the error of a datum that is no
command (R291). -/

namespace Sys2Proof.Machine

open Sys2Proof

/-! ### A write to `CMD` -/

theorem State.due_of_wr_command {s : State} {p : BitVec 70} {rest : List HostEvent} {v : U64} {i : Instr}
    (hp : s.inbox = .port p :: rest) (hd : decodeTransaction p = .wr 0x00#5 v) (hi : decode v = .ok i) :
    s.due = .command i := by
  simp [State.due, hp, hd, indexOfReg, hi]

theorem State.due_of_wr_illegal {s : State} {p : BitVec 70} {rest : List HostEvent} {v : U64} {x : Illegal}
    (hp : s.inbox = .port p :: rest) (hd : decodeTransaction p = .wr 0x00#5 v) (hx : decode v = .error x) :
    s.due = .illegal v := by
  simp [State.due, hp, hd, indexOfReg, hx]

theorem step_of_due_command {s : State} {i : Instr} (h : s.due = .command i) : step s = exec i s := by
  simp [step, h]

theorem step_of_due_illegal {s : State} {v : U64} (h : s.due = .illegal v) : step s = .next (illegalCommand v s) := by
  simp [step, h]

theorem step_of_due_event {s : State} {ev : HostEvent} (h : s.due = .event ev) : step s = .next (environment ev s) := by
  simp [step, h]

/-- All that the write of a command can do (R299): it is ignored, fatal, refused, or its body decides. -/
theorem exec_cases {i : Instr} {s t : State} (h : exec i s = .next t) :
    (s.halt = true ∧ t = s.retire) ∨
    (s.halt = false ∧ 32 ≤ s.stream.fill.toNat ∧ t = (s.retire.startCommand (encode i)).fatal) ∨
    (s.halt = false ∧ s.stream.fill.toNat < 32 ∧ s.err ≠ .none ∧ runsWhilePending i = false ∧ t = s.refusedBy i) ∨
    (s.halt = false ∧ s.stream.fill.toNat < 32 ∧ (s.err = .none ∨ runsWhilePending i = true) ∧
      t = settle (commandBody i (s.retire.startCommand (encode i)))) := by
  rw [exec_eq_commandBody] at h
  injection h with h
  subst h
  exact commandWrite_cases (encode i) (runsWhilePending i) (fun s => settle (commandBody i s)) s

/-- All that the write of an illegal word can do. -/
theorem illegalCommand_cases (v : U64) (s : State) :
    (s.halt = true ∧ illegalCommand v s = s.retire) ∨
    (s.halt = false ∧ 32 ≤ s.stream.fill.toNat ∧ illegalCommand v s = (s.retire.startCommand (v.setWidth 32)).fatal) ∨
    (s.halt = false ∧ s.stream.fill.toNat < 32 ∧ s.err ≠ .none ∧
      illegalCommand v s = s.retire.startCommand (v.setWidth 32)) ∨
    (s.halt = false ∧ s.stream.fill.toNat < 32 ∧ s.err = .none ∧
      illegalCommand v s = (s.retire.startCommand (v.setWidth 32)).raise .illegal v) := by
  obtain h | h | ⟨hrun, hfill, herr, -, h⟩ | ⟨hrun, hfill, herr, h⟩ :=
    commandWrite_cases (v.setWidth 32) false (fun s => s.raise .illegal v) s
  · exact .inl h
  · exact .inr (.inl h)
  · exact .inr (.inr (.inl ⟨hrun, hfill, herr, h⟩))
  · exact .inr (.inr (.inr ⟨hrun, hfill, herr.resolve_right Bool.false_ne_true, h⟩))

theorem exec_fatal (i : Instr) {s : State} (hrun : s.halt = false) (hfill : 32 ≤ s.stream.fill.toNat) :
    exec i s = .next (s.retire.startCommand (encode i)).fatal := by
  obtain ⟨t, ht⟩ : ∃ t, exec i s = .next t := ⟨_, exec_eq_commandBody i s⟩
  obtain ⟨hh, -⟩ | ⟨-, -, rfl⟩ | ⟨-, hlt, -⟩ | ⟨-, hlt, -⟩ := exec_cases ht
  · simp [hrun] at hh
  · exact ht
  · omega
  · omega

theorem exec_refused {i : Instr} {s : State} (hrun : s.halt = false) (hfill : s.stream.fill.toNat < 32)
    (herr : s.err ≠ .none) (hi : runsWhilePending i = false) : exec i s = .next (s.refusedBy i) := by
  obtain ⟨t, ht⟩ : ∃ t, exec i s = .next t := ⟨_, exec_eq_commandBody i s⟩
  obtain ⟨hh, -⟩ | ⟨-, hge, -⟩ | ⟨-, -, -, -, rfl⟩ | ⟨-, -, hgo, -⟩ := exec_cases ht
  · simp [hrun] at hh
  · omega
  · exact ht
  · simp [herr, hi] at hgo

theorem illegalCommand_fatal (v : U64) {s : State} (hrun : s.halt = false) (hfill : 32 ≤ s.stream.fill.toNat) :
    illegalCommand v s = (s.retire.startCommand (v.setWidth 32)).fatal := by
  obtain ⟨hh, -⟩ | ⟨-, -, h⟩ | ⟨-, hlt, -⟩ | ⟨-, hlt, -⟩ := illegalCommand_cases v s
  · simp [hrun] at hh
  · exact h
  · omega
  · omega

theorem illegalCommand_refused (v : U64) {s : State} (hrun : s.halt = false) (hfill : s.stream.fill.toNat < 32)
    (herr : s.err ≠ .none) : illegalCommand v s = s.retire.startCommand (v.setWidth 32) := by
  obtain ⟨hh, -⟩ | ⟨-, hge, -⟩ | ⟨-, -, -, h⟩ | ⟨-, -, hnone, -⟩ := illegalCommand_cases v s
  · simp [hrun] at hh
  · omega
  · exact h
  · exact absurd hnone herr

theorem illegalCommand_raises (v : U64) {s : State} (hrun : s.halt = false) (hfill : s.stream.fill.toNat < 32)
    (herr : s.err = .none) : illegalCommand v s = (s.retire.startCommand (v.setWidth 32)).raise .illegal v := by
  obtain ⟨hh, -⟩ | ⟨-, hge, -⟩ | ⟨-, -, hpend, -⟩ | ⟨-, -, -, h⟩ := illegalCommand_cases v s
  · simp [hrun] at hh
  · omega
  · exact absurd herr hpend
  · exact h

theorem State.raise_of_noError {s : State} (h : s.err = .none) (e : ErrCode) (info : U64) :
    s.raise e info = { s with err := e, errInfo := info, done := false, work := { s.work with phase := .idle } } := by
  simp [State.raise, h]

/-- Settles O17: the datum is due as an illegal word, and the model's `illegalCommand`, whose name this is, raises or is
refused by whether an error is pending. -/
theorem illegalCommandObligation : Obligations.IllegalCommand := by
  unfold Obligations.IllegalCommand
  intro s p rest v hp hd hno hrun hfill
  obtain ⟨x, hx⟩ : ∃ x, decode v = .error x := by
    cases h : decode v with
    | ok i => exact absurd h (hno i)
    | error x => exact ⟨x, rfl⟩
  have hstep := step_of_due_illegal (State.due_of_wr_illegal hp hd hx)
  refine ⟨fun herr => ?_, fun herr => ?_⟩
  · rw [hstep, illegalCommand_raises v hrun hfill herr, State.raise_of_noError (by simpa using herr),
      State.retire_of_inbox hp]
    rfl
  · rw [hstep, illegalCommand_refused v hrun hfill herr, State.retire_of_inbox hp]
    rfl

end Sys2Proof.Machine
end

section
/-! PROOFS. The errors a command raises before its first read (spec/60_exceptions.md R293, R294, R297, R301), each from its
cause and from nothing else, and what a step can do to `AVALID` (R301). -/

namespace Sys2Proof.Machine

open Sys2Proof

/-! ### The errors of a command -/

/-- The checks of a command do not see that its write has been taken (R102). -/
theorem State.violates_startCommand_iff {s : State} {w : BitVec 32} {i : Instr} {e : ErrCode} {info : U64} :
    (s.retire.startCommand w).Violates i e info ↔ s.Violates i e info := by
  rw [← State.violation_eq_some_iff, ← State.violation_eq_some_iff]
  rfl

/-- The write of an accepting core whose command fails a check before its first read: the frame of R300, and `SEL`. -/
theorem exec_of_violates {i : Instr} {s : State} {e : ErrCode} {info : U64} (hs : s.Accepts) (h : s.Violates i e info) :
    exec i s = .next { s.failed i e info with sel := s.selAfter i } := by
  have herr : ((s.retire.startCommand (encode i)).checked i).err = .none := hs.noError
  rw [exec_eq_commandBody, hs.runCommand_eq, commandBody_of_violates (State.violates_startCommand_iff.2 h), settle_error]
  dsimp only
  rw [State.raise_of_noError herr]
  rfl

/-- The frame of R300 alone, where `SEL` is not resolved. -/
theorem exec_of_violates_unresolved {i : Instr} {s : State} {e : ErrCode} {info : U64} (hs : s.Accepts)
    (h : s.Violates i e info) (hsel : s.selAfter i = s.sel) : exec i s = .next (s.failed i e info) := by
  rw [exec_of_violates hs h, hsel]
  rfl

/-- The errors a command can leave where none was pending. -/
theorem exec_err {i : Instr} {s t : State} (herr : s.err = .none) (h : exec i s = .next t) :
    t.err = .none ∨ t.err = .fatal ∨ t.err = .bus ∨ ∃ info, s.Violates i t.err info := by
  obtain ⟨-, rfl⟩ | ⟨-, -, rfl⟩ | ⟨-, -, hpend, -⟩ | ⟨-, -, -, rfl⟩ := exec_cases h
  · exact .inl herr
  · exact .inr (.inl rfl)
  · exact absurd herr hpend
  · have hkept : EndsIn (fun u => u.err = .none) id (commandBody i (s.retire.startCommand (encode i))) :=
      commandBody_keeps (keptByBodies_err .none) (s := s.retire.startCommand (encode i)) herr (fun _ => rfl) fun _ => herr
    cases hbody : commandBody i (s.retire.startCommand (encode i)) with
    | ok u =>
      rw [hbody] at hkept
      exact .inl hkept
    | error r =>
      rw [hbody] at hkept
      have hcode : (settle (.error r)).err = r.code := by
        rw [settle_error, State.raise_of_noError hkept]
        rfl
      rw [hcode]
      obtain hv | hbus := commandBody_error hbody
      · exact .inr (.inr (.inr ⟨r.info, State.violates_startCommand_iff.1 hv⟩))
      · exact .inr (.inr (.inl hbus))

/-- An error of R299, orders 5 to 8, has its cause. -/
theorem violates_of_exec_err {i : Instr} {s t : State} {e : ErrCode} (herr : s.err = .none) (h : exec i s = .next t)
    (ht : t.err = e) (hnone : e ≠ .none) (hfatal : e ≠ .fatal) (hbus : e ≠ .bus) : ∃ info, s.Violates i e info := by
  subst ht
  obtain h | h | h | h := exec_err herr h
  · exact absurd h hnone
  · exact absurd h hfatal
  · exact absurd h hbus
  · exact h

/-- Settles O19: `E_STREAM` is the first check of the commands that need a live context, and of no other. -/
theorem streamError : Obligations.StreamError := by
  unfold Obligations.StreamError
  refine ⟨fun i s hs hi hl => ?_, fun i s t herr h ht => ?_⟩
  · exact exec_of_violates_unresolved hs (.stream hi hl) (if_neg fun h => by simp [dispatched_eq_false_of_needsLive hi] at h)
  · obtain ⟨info, hv⟩ := violates_of_exec_err herr h ht (by decide) (by decide) (by decide)
    cases hv with
    | stream hi hl => exact ⟨hi, hl⟩

/-! ### `AVALID` (R301) -/

theorem settle_avalid {b : Bool} {r : Except Raise State} (h : EndsIn (fun u => u.avalid = b) id r) :
    (settle r).avalid = b := by
  cases r <;> exact h

theorem exec_avalid {i : Instr} {s t : State} (h : exec i s = .next t) :
    t.avalid = s.avalid ∨ (i = .ainit ∧ t.avalid = true) := by
  obtain ⟨-, rfl⟩ | ⟨-, -, rfl⟩ | ⟨-, -, -, -, rfl⟩ | ⟨-, -, -, rfl⟩ := exec_cases h
  · exact .inl rfl
  · exact .inl rfl
  · exact .inl rfl
  · by_cases hi : i = .ainit
    · subst hi
      exact .inr ⟨rfl, rfl⟩
    · exact .inl (settle_avalid (commandBody_keeps (keptByBodies_avalid s.avalid)
        (s := s.retire.startCommand (encode i)) rfl (fun _ => rfl) fun h => absurd h hi))

theorem illegalCommand_avalid (v : U64) (s : State) : (illegalCommand v s).avalid = s.avalid := by
  obtain ⟨-, h⟩ | ⟨-, -, h⟩ | ⟨-, -, -, h⟩ | ⟨-, -, -, h⟩ := illegalCommand_cases v s <;> rw [h] <;> rfl

theorem writeRegister_avalid (idx : BitVec 5) (v : U64) (s : State) : (writeRegister idx v s).avalid = s.avalid := by
  obtain ⟨-, h⟩ | ⟨-, ⟨-, h⟩ | ⟨-, h⟩ | ⟨-, h⟩ | ⟨-, h⟩ | ⟨-, -, -, -, h⟩⟩ := writeRegister_cases idx v s <;> rw [h] <;> rfl

theorem readRegister_avalid (idx : BitVec 5) (s : State) : (readRegister idx s).avalid = s.avalid := by
  cases h : regOfIndex idx with
  | some r => rw [readRegister_of_reg h]; rfl
  | none => rw [readRegister_of_reserved h]; rfl

theorem environment_avalid {ev : HostEvent} (h : ev ≠ .reset) (s : State) : (environment ev s).avalid = s.avalid := by
  cases ev with
  | reset => exact absurd rfl h
  | port _ | store _ _ | mapPage _ | unmapPage _ | race _ => rfl

theorem step_reset {s : State} (h : s.due = .event .reset) : step s = .next (hardReset s.retire) :=
  step_of_due_event h

/-- `AVALID` stays, or `AINIT` sets it, or reset clears it. -/
theorem step_avalid {s t : State} (h : step s = .next t) :
    t.avalid = s.avalid ∨ (s.due = .command .ainit ∧ t.avalid = true) ∨ (s.due = .event .reset ∧ t.avalid = false) := by
  by_cases hreset : s.due = .event .reset
  · rw [step_reset hreset] at h
    injection h with h
    subst h
    exact .inr (.inr ⟨hreset, rfl⟩)
  obtain ⟨-, hs⟩ | ⟨i, hd, hs⟩ | ⟨v, -, hs⟩ | ⟨idx, v, -, hs⟩ | ⟨idx, -, hs⟩ | ⟨ev, hd, hs⟩ := step_cases s <;>
    rw [hs] at h
  case inr.inl =>
    obtain hsame | ⟨rfl, hset⟩ := exec_avalid h
    · exact .inl hsame
    · exact .inr (.inl ⟨hd, hset⟩)
  all_goals
    injection h with h
    subst h
  · exact .inl rfl
  · exact .inl (illegalCommand_avalid v s)
  · exact .inl (writeRegister_avalid idx v s)
  · exact .inl (readRegister_avalid idx s)
  · exact .inl (environment_avalid (fun he => hreset (by rw [hd, he])) s)

/-- Settles O20: `E_ADAPT` is the first check of the commands that need the adapter, and of no other; what a step can do to
`AVALID` is `step_avalid`. -/
theorem adapterError : Obligations.AdapterError := by
  unfold Obligations.AdapterError
  refine ⟨fun i s hs hi ha => ?_, fun i s t herr h ht => ?_, rfl, fun s t h ha hreset => ?_, fun s t h ha ht => ?_⟩
  · exact exec_of_violates_unresolved hs (.adapt hi ha) (if_neg fun h => h.2 ⟨hi, ha⟩)
  · obtain ⟨info, hv⟩ := violates_of_exec_err herr h ht (by decide) (by decide) (by decide)
    cases hv with
    | adapt hi ha => exact ⟨hi, ha⟩
  · obtain h | ⟨-, h⟩ | ⟨hd, -⟩ := step_avalid h
    · rw [h, ha]
    · exact h
    · exact absurd hd hreset
  · obtain h | ⟨hd, -⟩ | ⟨-, h⟩ := step_avalid h
    · simp [h, ha] at ht
    · exact hd
    · simp [h] at ht

/-! ### `E_ALIGN` and `E_RANGE` (R293, R294) -/

/-- Settles O22: of the checks, only the one on `x[ADDR]` raises `E_ALIGN`, and it comes after those of the adapter and the
body. -/
theorem alignError : Obligations.AlignError := by
  unfold Obligations.AlignError
  refine ⟨fun i s W hs hr ha hp hm => exec_of_violates hs (.align W ha hp hr hm), fun i s t herr h ht => ?_⟩
  obtain ⟨info, hv⟩ := violates_of_exec_err herr h ht (by decide) (by decide) (by decide)
  cases hv with
  | align W ha hp hr hm => exact ⟨W, hr, hm⟩

/-- Settles O23: of the checks, only the last raises `E_RANGE`; an empty input cannot fail it, since `x[ADDR]` is below
`2^64`. -/
theorem rangeError : Obligations.RangeError := by
  unfold Obligations.RangeError
  refine ⟨fun i s W a hs hr hl ha hp hm ho => exec_of_violates hs (.range W a hl ha hp hr hm ho),
    fun i s t herr h ht => ?_⟩
  obtain ⟨info, hv⟩ := violates_of_exec_err herr h ht (by decide) (by decide) (by decide)
  cases hv with
  | range W a hl ha hp hr hm ho =>
    refine ⟨fun hlen => ?_, ho⟩
    have hzero : s.len.toNat = 0 := by rw [hlen]; rfl
    have := s.addr.isLt
    omega

end Sys2Proof.Machine
end

section
/-! PROOFS. A pending error stays (spec/60_exceptions.md R303), and the fatal one halts the core and is never reached from reset
(R298). -/

namespace Sys2Proof.Machine

open Sys2Proof

/-! ### The first error wins (R303) -/

/-- Both states hold the same error. -/
structure State.SameErrors (s t : State) : Prop where
  err : t.err = s.err
  errInfo : t.errInfo = s.errInfo

theorem runsWhilePending_iff (i : Instr) : runsWhilePending i = true ↔ i = .nop ∨ i = .clrerr := by
  cases i <;> simp [runsWhilePending]

theorem State.badAccess_sameErrors (idx : BitVec 5) {s : State} (h : s.err ≠ .none) : s.SameErrors (s.badAccess idx) := by
  rw [State.badAccess_of_pending idx h]
  exact ⟨rfl, rfl⟩

theorem exec_sameErrors {i : Instr} {s t : State} (h : exec i s = .next t) (herr : s.err ≠ .none) :
    s.SameErrors t ∨ i = .clrerr ∨ (t.err = .fatal ∧ t.halt = true) := by
  obtain ⟨-, rfl⟩ | ⟨-, -, rfl⟩ | ⟨-, -, -, -, rfl⟩ | ⟨-, -, hgo, rfl⟩ := exec_cases h
  · exact .inl ⟨rfl, rfl⟩
  · exact .inr (.inr ⟨rfl, rfl⟩)
  · exact .inl ⟨rfl, rfl⟩
  · obtain rfl | rfl := (runsWhilePending_iff i).1 (hgo.resolve_left herr)
    · exact .inl ⟨rfl, rfl⟩
    · exact .inr (.inl rfl)

theorem illegalCommand_sameErrors (v : U64) {s : State} (herr : s.err ≠ .none) :
    s.SameErrors (illegalCommand v s) ∨ ((illegalCommand v s).err = .fatal ∧ (illegalCommand v s).halt = true) := by
  obtain ⟨-, h⟩ | ⟨-, -, h⟩ | ⟨-, -, -, h⟩ | ⟨-, -, hnone, -⟩ := illegalCommand_cases v s
  · exact .inl (h ▸ ⟨rfl, rfl⟩)
  · exact .inr (h ▸ ⟨rfl, rfl⟩)
  · exact .inl (h ▸ ⟨rfl, rfl⟩)
  · exact absurd hnone herr

theorem writeRegister_sameErrors (idx : BitVec 5) (v : U64) {s : State} (herr : s.err ≠ .none) :
    s.SameErrors (writeRegister idx v s) := by
  obtain ⟨-, h⟩ | ⟨-, ⟨-, h⟩ | ⟨-, h⟩ | ⟨-, h⟩ | ⟨-, h⟩ | ⟨-, -, -, -, h⟩⟩ := writeRegister_cases idx v s <;> rw [h]
  case inr.inr.inr.inr.inr =>
    obtain ⟨he, hi⟩ := State.badAccess_sameErrors idx (s := s.retire) herr
    exact ⟨he, hi⟩
  all_goals exact ⟨rfl, rfl⟩

theorem readRegister_sameErrors (idx : BitVec 5) {s : State} (herr : s.err ≠ .none) :
    s.SameErrors (readRegister idx s) := by
  cases h : regOfIndex idx with
  | some r => rw [readRegister_of_reg h]; exact ⟨rfl, rfl⟩
  | none =>
    rw [readRegister_of_reserved h]
    obtain ⟨he, hi⟩ := State.badAccess_sameErrors idx (s := s.retire) herr
    exact ⟨he, hi⟩

theorem environment_sameErrors {ev : HostEvent} (h : ev ≠ .reset) (s : State) : s.SameErrors (environment ev s) := by
  cases ev with
  | reset => exact absurd rfl h
  | port _ | store _ _ | mapPage _ | unmapPage _ | race _ => exact ⟨rfl, rfl⟩

/-- A pending error stays through every step but the three of R303. -/
theorem step_sameErrors {s t : State} (h : step s = .next t) (herr : s.err ≠ .none) :
    s.SameErrors t ∨ s.due = .command .clrerr ∨ s.due = .event .reset ∨ (t.err = .fatal ∧ t.halt = true) := by
  obtain ⟨-, hs⟩ | ⟨i, hd, hs⟩ | ⟨v, -, hs⟩ | ⟨idx, v, -, hs⟩ | ⟨idx, -, hs⟩ | ⟨ev, hd, hs⟩ := step_cases s <;>
    rw [hs] at h
  case inr.inl =>
    obtain hsame | rfl | hfatal := exec_sameErrors h herr
    · exact .inl hsame
    · exact .inr (.inl hd)
    · exact .inr (.inr (.inr hfatal))
  all_goals
    injection h with h
    subst h
  · exact .inl ⟨rfl, rfl⟩
  · exact (illegalCommand_sameErrors v herr).imp_right fun h => .inr (.inr h)
  · exact .inl (writeRegister_sameErrors idx v herr)
  · exact .inl (readRegister_sameErrors idx herr)
  · by_cases he : ev = .reset
    · exact .inr (.inr (.inl (by rw [hd, he])))
    · exact .inl (environment_sameErrors he s)

/-- Settles O16: the refusals are the third case of every command write, and the last clause goes through every kind of
step (`step_sameErrors`). -/
theorem firstErrorWins : Obligations.FirstErrorWins := by
  unfold Obligations.FirstErrorWins
  refine ⟨fun i s hrun hfill herr hnop hclr => ?_, fun s v hd hrun hfill herr => ?_, fun s t h herr => ?_⟩
  · have hi : ¬ runsWhilePending i = true := fun h => ((runsWhilePending_iff i).1 h).elim hnop hclr
    exact exec_refused hrun hfill herr (by simpa using hi)
  · rw [step_of_due_illegal hd, illegalCommand_refused v hrun hfill herr]
    rfl
  · exact (step_sameErrors h herr).imp_left fun ⟨he, hi⟩ => ⟨he, hi⟩

/-! ### `E_FATAL` (R298) -/

theorem readRegister_halt (idx : BitVec 5) (s : State) : (readRegister idx s).halt = s.halt := by
  cases h : regOfIndex idx with
  | some r => rw [readRegister_of_reg h]; rfl
  | none => rw [readRegister_of_reserved h]; rfl

theorem environment_halt {ev : HostEvent} (h : ev ≠ .reset) (s : State) : (environment ev s).halt = s.halt := by
  cases ev with
  | reset => exact absurd rfl h
  | port _ | store _ _ | mapPage _ | unmapPage _ | race _ => rfl

/-- Only reset leads out of the halt. -/
theorem step_halted {s t : State} (hhalt : s.halt = true) (h : step s = .next t) (hreset : s.due ≠ .event .reset) :
    t.halt = true := by
  obtain ⟨-, hs⟩ | ⟨i, -, hs⟩ | ⟨v, -, hs⟩ | ⟨idx, v, -, hs⟩ | ⟨idx, -, hs⟩ | ⟨ev, hd, hs⟩ := step_cases s <;>
    rw [hs] at h
  case inr.inl =>
    rw [exec_halted i hhalt] at h
    injection h with h
    subst h
    exact hhalt
  all_goals
    injection h with h
    subst h
  · exact hhalt
  · rw [illegalCommand_halted v hhalt]; exact hhalt
  · rw [writeRegister_halted idx v hhalt]; exact hhalt
  · rw [readRegister_halt]; exact hhalt
  · rw [environment_halt fun he => hreset (by rw [hd, he])]; exact hhalt

/-- A read of any index while a fatal error is recorded; the bad access to a reserved one is dropped (R303). -/
theorem step_rd_fatal {s : State} {p : BitVec 70} {rest : List HostEvent} {idx : BitVec 5}
    (hp : s.inbox = .port p :: rest) (hd : decodeTransaction p = .rd idx) (herr : s.err = .fatal) :
    step s = .next { s with inbox := rest, reply := some ((regOfIndex idx).elim 0#64 (regValue s)) } := by
  cases hr : regOfIndex idx with
  | some r => exact step_rd_of_reg hp hd hr
  | none =>
    rw [step_of_due_read (State.due_of_rd hp hd), readRegister_of_reserved hr,
      State.badAccess_of_pending idx (s := s.retire) (by simp [herr]), State.retire_of_inbox hp]
    rfl

theorem State.Sound.raise {s : State} (h : s.Sound) {e : ErrCode} (he : e ≠ .fatal) (info : U64) :
    (s.raise e info).Sound := by
  refine ⟨h.running, ?_, h.fill⟩
  show (if s.err = .none then e else s.err) ≠ .fatal
  split
  · exact he
  · exact h.notFatal

theorem State.Sound.badAccess {s : State} (h : s.Sound) (idx : BitVec 5) : (s.badAccess idx).Sound := by
  refine ⟨h.running, ?_, h.fill⟩
  rw [State.badAccess_err]
  split
  · decide
  · exact h.notFatal

/-- No body raises `E_FATAL`. -/
theorem commandBody_error_ne_fatal {i : Instr} {s : State} {r : Raise} (h : commandBody i s = .error r) :
    r.code ≠ .fatal := by
  intro hfatal
  obtain hv | hbus := commandBody_error h
  · rw [hfatal] at hv
    cases hv
  · simp [hfatal] at hbus

theorem settle_commandBody_sound {s : State} (hs : s.Sound) (i : Instr) : (settle (commandBody i s)).Sound := by
  have hkept : EndsIn State.Sound id (commandBody i s) :=
    commandBody_keeps keptByBodies_sound hs (fun _ => ⟨hs.running, by simp, hs.fill⟩)
      fun _ => ⟨hs.running, hs.notFatal, hs.fill⟩
  cases h : commandBody i s with
  | ok u =>
    rw [h] at hkept
    obtain ⟨hrun, hfatal, hfill⟩ := hkept
    exact ⟨hrun, hfatal, hfill⟩
  | error r =>
    rw [h] at hkept
    obtain ⟨hrun, hfatal, hfill⟩ := State.Sound.raise hkept (commandBody_error_ne_fatal h) r.info
    exact ⟨hrun, hfatal, hfill⟩

theorem exec_sound {i : Instr} {s t : State} (hs : s.Sound) (h : exec i s = .next t) : t.Sound := by
  obtain ⟨hrun, hfatal, hfill⟩ := hs
  obtain ⟨-, rfl⟩ | ⟨-, hge, -⟩ | ⟨-, -, -, -, rfl⟩ | ⟨-, -, -, rfl⟩ := exec_cases h
  · exact ⟨hrun, hfatal, hfill⟩
  · exact absurd hge (by omega)
  · exact ⟨hrun, hfatal, hfill⟩
  · exact settle_commandBody_sound (s := s.retire.startCommand (encode i)) ⟨hrun, hfatal, hfill⟩ i

theorem illegalCommand_sound {s : State} (hs : s.Sound) (v : U64) : (illegalCommand v s).Sound := by
  obtain ⟨hrun, hfatal, hfill⟩ := hs
  obtain ⟨-, h⟩ | ⟨-, hge, -⟩ | ⟨-, -, -, h⟩ | ⟨-, -, -, h⟩ := illegalCommand_cases v s
  · exact h ▸ ⟨hrun, hfatal, hfill⟩
  · exact absurd hge (by omega)
  · exact h ▸ ⟨hrun, hfatal, hfill⟩
  · exact h ▸ State.Sound.raise (s := s.retire.startCommand (v.setWidth 32)) ⟨hrun, hfatal, hfill⟩ (by decide) v

theorem writeRegister_sound {s : State} (hs : s.Sound) (idx : BitVec 5) (v : U64) : (writeRegister idx v s).Sound := by
  obtain ⟨hrun, hfatal, hfill⟩ := hs
  obtain ⟨-, h⟩ | ⟨-, ⟨-, h⟩ | ⟨-, h⟩ | ⟨-, h⟩ | ⟨-, h⟩ | ⟨-, -, -, -, h⟩⟩ := writeRegister_cases idx v s <;> rw [h]
  case inr.inr.inr.inr.inr => exact State.Sound.badAccess (s := s.retire) ⟨hrun, hfatal, hfill⟩ idx
  all_goals exact ⟨hrun, hfatal, hfill⟩

theorem readRegister_sound {s : State} (hs : s.Sound) (idx : BitVec 5) : (readRegister idx s).Sound := by
  obtain ⟨hrun, hfatal, hfill⟩ := hs
  cases h : regOfIndex idx with
  | some r => rw [readRegister_of_reg h]; exact ⟨hrun, hfatal, hfill⟩
  | none =>
    rw [readRegister_of_reserved h]
    obtain ⟨hrun', hfatal', hfill'⟩ := State.Sound.badAccess (s := s.retire) ⟨hrun, hfatal, hfill⟩ idx
    exact ⟨hrun', hfatal', hfill'⟩

theorem hardReset_sound (s : State) : (hardReset s).Sound :=
  ⟨rfl, (by decide : ErrCode.none ≠ .fatal), show (0#6).toNat < 32 by decide⟩

theorem environment_sound {s : State} (hs : s.Sound) (ev : HostEvent) : (environment ev s).Sound := by
  obtain ⟨hrun, hfatal, hfill⟩ := hs
  cases ev with
  | reset => exact hardReset_sound s.retire
  | port _ | store _ _ | mapPage _ | unmapPage _ | race _ => exact ⟨hrun, hfatal, hfill⟩

theorem step_sound {s t : State} (hs : s.Sound) (h : step s = .next t) : t.Sound := by
  obtain ⟨-, hstep⟩ | ⟨i, -, hstep⟩ | ⟨v, -, hstep⟩ | ⟨idx, v, -, hstep⟩ | ⟨idx, -, hstep⟩ | ⟨ev, -, hstep⟩ :=
    step_cases s <;> rw [hstep] at h
  case inr.inl => exact exec_sound hs h
  all_goals
    injection h with h
    subst h
  · exact hs
  · exact illegalCommand_sound hs v
  · exact writeRegister_sound hs idx v
  · exact readRegister_sound hs idx
  · exact environment_sound hs ev

theorem Reachable.sound {s : State} (h : Reachable s) : s.Sound := by
  induction h with
  | reset evs => exact ⟨rfl, (by decide : ErrCode.none ≠ .fatal), show (0#6).toNat < 32 by decide⟩
  | step _ hstep ih => exact step_sound ih hstep

/-- Settles O18: the fatal outcome of every command write, the halted core's transactions, the only way out, and `Sound` as
an invariant of every state reachable from reset. -/
theorem fatalHalts : Obligations.FatalHalts := by
  unfold Obligations.FatalHalts
  refine ⟨fun i s hrun hfill => exec_fatal i hrun hfill, fun s v hd hrun hfill => ?_,
    fun s p rest idx v hhalt hp hd => ?_, fun s p rest idx _ herr hp hd => step_rd_fatal hp hd herr,
    fun s t hhalt h hreset => step_halted hhalt h hreset, fun s rest hp => ?_, fun s h => ?_⟩
  · rw [step_of_due_illegal hd, illegalCommand_fatal v hrun hfill]
    rfl
  · rw [step_wr_halted hp hd hhalt, State.retire_of_inbox hp]
  · exact ⟨_, step_reset (by simp [State.due, hp]), rfl⟩
  · obtain ⟨hrun, hfatal, hfill⟩ := h.sound
    exact ⟨hrun, hfatal, hfill⟩

end Sys2Proof.Machine
end

section
/-! PROOFS. A write to `CMD` has exactly one outcome (spec/60_exceptions.md R299): the word in `CMD`, and the order in which the
conditions decide. -/

namespace Sys2Proof.Machine

open Sys2Proof

/-! ### The order of priority (R299) -/

/-- The fields of R104 of a datum's low half. -/
theorem setWidth_eq_fields (v : U64) :
    v.setWidth 32 = (fieldsOf v).z ++ BitVec.ofBool (fieldsOf v).a ++ BitVec.ofBool (fieldsOf v).e ++ (fieldsOf v).opc := by
  refine BitVec.eq_of_getLsbD_eq fun j hj => ?_
  simp only [fieldsOf, BitVec.getLsbD_append, BitVec.getLsbD_setWidth, BitVec.getLsbD_ofBool, BitVec.getLsbD_extractLsb', hj]
  by_cases h8 : j < 8
  · simp [h8]
  by_cases h9 : j = 8
  · simp [h9]
  by_cases h10 : j = 9
  · simp [h10]
  · have h1 : ¬ j - 8 < 1 := by omega
    have h2 : ¬ j - 8 - 1 < 1 := by omega
    have h3 : j - 8 - 1 - 1 < 22 := by omega
    have h4 : 10 + (j - 8 - 1 - 1) = j := by omega
    simp [h8, h1, h2, h3, h4]

/-- The decoder answers a command only for the fields its encoding has. -/
theorem encode_of_decodeOpcode {opc : BitVec 8} {e a : Bool} {i : Instr} (h : decodeOpcode opc e a = .ok i) :
    encode i = 0#22 ++ BitVec.ofBool a ++ BitVec.ofBool e ++ opc := by
  have hboth {j : Instr} (hj : encode j = 0#22 ++ BitVec.ofBool false ++ BitVec.ofBool false ++ opc)
      (h : fixedBoth e a j = .ok i) : encode i = 0#22 ++ BitVec.ofBool a ++ BitVec.ofBool e ++ opc := by
    cases e <;> cases a <;> cases h
    exact hj
  have he {j : Instr} (hj : encode j = 0#22 ++ BitVec.ofBool a ++ BitVec.ofBool false ++ opc)
      (h : fixedE e j = .ok i) : encode i = 0#22 ++ BitVec.ofBool a ++ BitVec.ofBool e ++ opc := by
    cases e <;> cases h
    exact hj
  unfold decodeOpcode at h
  split at h
  case h_1 | h_2 | h_8 | h_9 | h_10 | h_11 | h_12 | h_14 => exact hboth (by decide) h
  case h_6 | h_7 => exact he (by cases a <;> decide) h
  case h_3 | h_4 | h_5 | h_13 =>
    cases h
    cases e <;> cases a <;> decide
  case h_15 => cases h

theorem encode_of_decode {v : U64} {i : Instr} (h : decode v = .ok i) : encode i = v.setWidth 32 := by
  unfold decode at h
  dsimp only at h
  split at h
  · cases h
  · split at h
    · cases h
    · next hz => rw [setWidth_eq_fields, Classical.not_not.1 hz, encode_of_decodeOpcode h]

/-- A command that passes its checks completes, or ends in a bus error where a byte of its input is unmapped. -/
theorem exec_of_passes {i : Instr} {s : State} (hs : s.Accepts) (h : s.Passes i) :
    ∃ t, exec i s = .next t ∧ t.cmd = encode i ∧
      if (s.reads i).isSome = true ∧ ¬ s.InputMapped then t.err = .bus ∧ t.done = false else t.done = true := by
  have hcmd : EndsIn (fun u => u.cmd = encode i) id (commandBody i (s.retire.startCommand (encode i))) :=
    commandBody_keeps (keptByBodies_cmd (encode i)) (s := s.retire.startCommand (encode i)) rfl (fun _ => rfl) fun _ => rfl
  have herr : EndsIn (fun u => u.err = .none) id (commandBody i (s.retire.startCommand (encode i))) :=
    commandBody_keeps (keptByBodies_err .none) (s := s.retire.startCommand (encode i)) hs.noError (fun _ => rfl)
      fun _ => hs.noError
  have hattempt : Attempt ((s.reads i).isSome = true → s.InputMapped)
      (commandBody i (s.retire.startCommand (encode i))) :=
    commandBody_attempt (s := s.retire.startCommand (encode i)) ⟨h.live, h.adapter, h.present, h.aligned, h.inRange⟩
  rw [exec_eq_commandBody, hs.runCommand_eq]
  cases hbody : commandBody i (s.retire.startCommand (encode i)) with
  | ok u =>
    rw [hbody] at hcmd hattempt
    refine ⟨_, rfl, hcmd, ?_⟩
    rw [if_neg fun h => h.2 (hattempt h.1)]
    rfl
  | error r =>
    rw [hbody] at hcmd herr hattempt
    obtain ⟨hbus, hunmapped⟩ := hattempt
    refine ⟨_, rfl, hcmd, ?_⟩
    rw [if_pos (Classical.not_imp.1 hunmapped), settle_error, State.raise_of_noError herr]
    exact ⟨hbus, rfl⟩

/-- `NOP` and `CLRERR` complete whatever error is pending (R303). -/
theorem exec_of_runsWhilePending {i : Instr} {s : State} (hi : runsWhilePending i = true) (hrun : s.halt = false)
    (hfill : s.stream.fill.toNat < 32) : ∃ t, exec i s = .next t ∧ t.cmd = encode i ∧ t.done = true := by
  obtain rfl | rfl := (runsWhilePending_iff i).1 hi
  · exact ⟨_, exec_nop_running hrun hfill, rfl, rfl⟩
  · exact ⟨_, exec_clrerr_running hrun hfill, rfl, rfl⟩

theorem State.violation_of_runsWhilePending {i : Instr} (hi : runsWhilePending i = true) (s : State) :
    s.violation i = none ∧ s.reads i = none := by
  obtain rfl | rfl := (runsWhilePending_iff i).1 hi <;> simp [State.violation, State.reads, Instr.needsLive,
    Instr.needsAdapter, Instr.dispatched]

/-- Orders 5 to 9 of R299, for a command that is not ignored, fatal or refused. -/
theorem exec_priority {i : Instr} {s : State} (hrun : s.halt = false) (hfill : s.stream.fill.toNat < 32)
    (hgo : s.err = .none ∨ runsWhilePending i = true) :
    ∃ t, exec i s = .next t ∧ t.cmd = encode i ∧
      match s.violation i with
      | some (e, info) => t.err = e ∧ t.errInfo = info ∧ t.done = false ∧ t.sel = s.selAfter i
      | none => if (s.reads i).isSome = true ∧ ¬ s.InputMapped then t.err = .bus ∧ t.done = false else t.done = true := by
  by_cases hi : runsWhilePending i = true
  · obtain ⟨t, ht, hcmd, hdone⟩ := exec_of_runsWhilePending hi hrun hfill
    obtain ⟨hviol, hreads⟩ := s.violation_of_runsWhilePending hi
    exact ⟨t, ht, hcmd, by simpa [hviol, hreads] using hdone⟩
  · have hs : s.Accepts := ⟨hrun, hfill, hgo.resolve_right hi⟩
    cases hviol : s.violation i with
    | some r =>
      obtain ⟨e, info⟩ := r
      exact ⟨_, exec_of_violates hs (State.violation_eq_some_iff.1 hviol), rfl, rfl, rfl, rfl, rfl⟩
    | none => exact exec_of_passes hs (State.passes_of_violation_eq_none hviol)

theorem step_wr_cmd_fatal {s : State} {p : BitVec 70} {rest : List HostEvent} {v : U64} (hp : s.inbox = .port p :: rest)
    (hd : decodeTransaction p = .wr 0x00#5 v) (hrun : s.halt = false) (hfill : 32 ≤ s.stream.fill.toNat) :
    step s = .next (s.retire.startCommand (v.setWidth 32)).fatal := by
  cases hv : decode v with
  | ok i => rw [step_of_due_command (State.due_of_wr_command hp hd hv), exec_fatal i hrun hfill, encode_of_decode hv]
  | error x => rw [step_of_due_illegal (State.due_of_wr_illegal hp hd hv), illegalCommand_fatal v hrun hfill]

theorem step_wr_cmd_refused {s : State} {p : BitVec 70} {rest : List HostEvent} {v : U64} (hp : s.inbox = .port p :: rest)
    (hd : decodeTransaction p = .wr 0x00#5 v) (hrun : s.halt = false) (hfill : s.stream.fill.toNat < 32)
    (herr : s.err ≠ .none) (hnop : decode v ≠ .ok .nop) (hclr : decode v ≠ .ok .clrerr) :
    step s = .next (s.retire.startCommand (v.setWidth 32)) := by
  cases hv : decode v with
  | ok i =>
    have hi : ¬ runsWhilePending i = true := fun h =>
      ((runsWhilePending_iff i).1 h).elim (fun h => hnop (h ▸ hv)) fun h => hclr (h ▸ hv)
    rw [step_of_due_command (State.due_of_wr_command hp hd hv), exec_refused hrun hfill herr (by simpa using hi),
      ← encode_of_decode hv]
    rfl
  | error x => rw [step_of_due_illegal (State.due_of_wr_illegal hp hd hv), illegalCommand_refused v hrun hfill herr]

/-- Settles O26: the conditions in their order, each with the lemma that says what a command write does under it;
`exec_priority` is the part that the command's own checks decide. -/
theorem priorityOrder : Obligations.PriorityOrder := by
  unfold Obligations.PriorityOrder
  intro s p rest v hp hd
  by_cases hhalt : s.halt = true
  · exact ⟨_, step_wr_halted hp hd hhalt, by rw [if_pos hhalt, State.retire_of_inbox hp]⟩
  have hrun : s.halt = false := by simpa using hhalt
  simp only [if_neg hhalt]
  by_cases hfill : 32 ≤ s.stream.fill.toNat
  · simp only [if_pos hfill]
    exact ⟨_, step_wr_cmd_fatal hp hd hrun hfill, rfl, rfl, rfl, rfl, rfl⟩
  have hfill' : s.stream.fill.toNat < 32 := by omega
  simp only [if_neg hfill]
  by_cases hrefused : s.err ≠ .none ∧ decode v ≠ .ok .nop ∧ decode v ≠ .ok .clrerr
  · obtain ⟨herr, hnop, hclr⟩ := hrefused
    refine ⟨_, step_wr_cmd_refused hp hd hrun hfill' herr hnop hclr, ?_⟩
    rw [if_pos ⟨herr, hnop, hclr⟩, State.retire_of_inbox hp]
    rfl
  simp only [if_neg hrefused]
  cases hv : decode v with
  | error x =>
    have herr : s.err = .none := by simpa [hv] using hrefused
    rw [step_of_due_illegal (State.due_of_wr_illegal hp hd hv), illegalCommand_raises v hrun hfill' herr,
      State.raise_of_noError (by simpa using herr)]
    exact ⟨_, rfl, rfl, rfl, rfl, rfl⟩
  | ok i =>
    have hgo : s.err = .none ∨ runsWhilePending i = true := by
      by_contra hno
      obtain ⟨herr, hi⟩ := not_or.1 hno
      refine hrefused ⟨herr, fun h => hi ?_, fun h => hi ?_⟩
      · obtain rfl : i = .nop := by simpa [hv] using h
        rfl
      · obtain rfl : i = .clrerr := by simpa [hv] using h
        rfl
    rw [step_of_due_command (State.due_of_wr_command hp hd hv), ← encode_of_decode hv]
    exact exec_priority hrun hfill' hgo

end Sys2Proof.Machine
end

section
/-! PROOFS. The encoding (spec/30_encoding.md): decoder and encoder are inverse (R114, R115), the legal words are those the rows
of the opcode map cover (R110, R112), the pattern of a transaction (R101), and the step that a transaction to `CMD` makes
(R102). -/

namespace Sys2Proof.Machine

open Sys2Proof

/-! ### Decoder and encoder -/

theorem decode_encodeDatum (i : Instr) : decode (encodeDatum i) = .ok i := by
  cases i with
  | nop | clrerr | sinit | supd | sfin | sfinx | ainit | afin => decide
  | hash3 a | hash3x a => cases a <;> decide
  | hash0 e a | hash1 e a | hash2 e a | awrite e a => cases e <;> cases a <;> decide

/-- The decoder tests the high half first (R114). -/
theorem high_eq_zero_of_decode {v : U64} {i : Instr} (h : decode v = .ok i) : v.extractLsb' 32 32 = 0#32 := by
  by_contra hne
  simp [decode, fieldsOf, hne] at h

theorem eq_setWidth_of_high_eq_zero {v : U64} (h : v.extractLsb' 32 32 = 0#32) : v = (v.setWidth 32).setWidth 64 := by
  have hhigh : v.toNat >>> 32 % 2 ^ 32 = 0 := by simpa using congrArg BitVec.toNat h
  have hlt := v.isLt
  apply BitVec.eq_of_toNat_eq
  rw [Nat.shiftRight_eq_div_pow] at hhigh
  rw [BitVec.toNat_setWidth, BitVec.toNat_setWidth]
  omega

theorem eq_encodeDatum_of_decode {v : U64} {i : Instr} (h : decode v = .ok i) : v = encodeDatum i := by
  rw [encodeDatum, encode_of_decode h]
  exact eq_setWidth_of_high_eq_zero (high_eq_zero_of_decode h)

/-- Settles O1: the first direction by cases on the command and its free bits, the second from the fields of the datum: the
decoder has tested those that the encoder writes as zero. -/
theorem decodeEncodeAgree : Obligations.DecodeEncodeAgree := by
  unfold Obligations.DecodeEncodeAgree
  exact ⟨fun i _ => decode_encodeDatum i, fun v i => eq_encodeDatum_of_decode⟩

/-! ### The legal words -/

/-- The commands of R110, each with every value of its free bits. -/
def legalInstrs : List Instr :=
  [.nop, .clrerr, .sinit, .supd, .sfin, .sfinx, .ainit, .afin] ++
    [Discipline.unaligned, .aligned].flatMap fun a =>
      .hash3 a :: .hash3x a :: [Endian.little, .big].flatMap fun e => [.hash0 e a, .hash1 e a, .hash2 e a, .awrite e a]

theorem mem_legalInstrs (i : Instr) : i ∈ legalInstrs := by
  cases i with
  | nop | clrerr | sinit | supd | sfin | sfinx | ainit | afin => decide
  | hash3 a | hash3x a => cases a <;> decide
  | hash0 e a | hash1 e a | hash2 e a | awrite e a => cases e <;> cases a <;> decide

theorem legalDatum_encodeDatum (i : Instr) : legalDatum (encodeDatum i) = true := by
  cases i with
  | nop => exact Laws.EncodesLegally.nop.1
  | clrerr => exact Laws.EncodesLegally.clrerr.1
  | hash0 e a => exact (Laws.EncodesLegally.hash0 e a).1
  | hash1 e a => exact (Laws.EncodesLegally.hash1 e a).1
  | hash2 e a => exact (Laws.EncodesLegally.hash2 e a).1
  | hash3 a => exact (Laws.EncodesLegally.hash3 a).1
  | hash3x a => exact (Laws.EncodesLegally.hash3x a).1
  | sinit => exact Laws.EncodesLegally.sinit.1
  | supd => exact Laws.EncodesLegally.supd.1
  | sfin => exact Laws.EncodesLegally.sfin.1
  | sfinx => exact Laws.EncodesLegally.sfinx.1
  | ainit => exact Laws.EncodesLegally.ainit.1
  | awrite e a => exact (Laws.EncodesLegally.awrite e a).1
  | afin => exact Laws.EncodesLegally.afin.1

/-- The bits `E` and `A`, the only ones that a row of R110 may leave free. -/
def freeBits : BitVec 32 := 0x300#32

theorem and_freeBits_mem (w : BitVec 32) : w &&& freeBits ∈ [0#32, 0x100#32, 0x200#32, 0x300#32] := by
  have hsplit : w &&& freeBits = (w &&& BitVec.twoPow 32 8) ||| (w &&& BitVec.twoPow 32 9) := by
    rw [← BitVec.and_or_distrib_left]
    rfl
  rw [hsplit, BitVec.and_twoPow, BitVec.and_twoPow]
  cases w.getLsbD 8 <;> cases w.getLsbD 9 <;> decide

/-- A word that a row covers is the row's pattern with some of the free bits. -/
theorem eq_of_covers {r : OpcodeRow} (hr : r ∈ opcodeRows) {w : BitVec 32} (h : r.covers w = true) :
    w = r.pattern ||| ((w &&& freeBits) &&& ~~~r.mask) := by
  have hfree : ∀ r ∈ opcodeRows, freeBits &&& ~~~r.mask = ~~~r.mask := by decide
  have hpattern : w &&& r.mask = r.pattern := by simpa [OpcodeRow.covers] using h
  rw [BitVec.and_assoc, hfree r hr, ← hpattern, ← BitVec.and_or_distrib_left, BitVec.or_not_self, BitVec.and_allOnes]

theorem exists_decode_of_covers {r : OpcodeRow} (hr : r ∈ opcodeRows) {w : BitVec 32} (h : r.covers w = true) :
    ∃ i, decode (w.setWidth 64) = .ok i := by
  have hrows : (opcodeRows.all fun r => [0#32, 0x100#32, 0x200#32, 0x300#32].all fun b =>
      (decode ((r.pattern ||| (b &&& ~~~r.mask)).setWidth 64)).isOk) = true := by decide
  have hok := List.all_eq_true.1 (List.all_eq_true.1 hrows r hr) _ (and_freeBits_mem w)
  rw [← eq_of_covers hr h] at hok
  cases hd : decode (w.setWidth 64) with
  | ok i => exact ⟨i, rfl⟩
  | error x => simp [hd, Except.isOk, Except.toBool] at hok

theorem exists_decode_of_legalDatum {v : U64} (h : legalDatum v = true) : ∃ i, decode v = .ok i := by
  simp only [legalDatum, Bool.and_eq_true, beq_iff_eq, List.any_eq_true] at h
  obtain ⟨hhigh, r, hr, hcovers⟩ := h
  have hlow : v.extractLsb' 0 32 = v.setWidth 32 := BitVec.setWidth_eq_extractLsb' (by decide) |>.symm
  rw [eq_setWidth_of_high_eq_zero hhigh, ← hlow]
  exact exists_decode_of_covers hr hcovers

theorem legalDatum_iff_exists_decode (v : U64) : legalDatum v = true ↔ ∃ i, decode v = .ok i := by
  refine ⟨exists_decode_of_legalDatum, fun ⟨i, hi⟩ => ?_⟩
  rw [eq_encodeDatum_of_decode hi]
  exact legalDatum_encodeDatum i

/-- Settles O2: a datum is legal exactly if it is the datum of a command, and there are 28 of these. -/
theorem legalWords : Obligations.LegalWords := by
  unfold Obligations.LegalWords
  refine ⟨legalDatum_iff_exists_decode, legalInstrs.map encodeDatum, by decide, by decide, fun v => ?_⟩
  rw [legalDatum_iff_exists_decode, List.mem_map]
  refine ⟨fun ⟨i, hi⟩ => ⟨i, mem_legalInstrs i, (eq_encodeDatum_of_decode hi).symm⟩, ?_⟩
  rintro ⟨i, -, rfl⟩
  exact ⟨i, decode_encodeDatum i⟩

/-- Settles O4: each word is evaluated. -/
theorem workedEncodings : Obligations.WorkedEncodings := by
  unfold Obligations.WorkedEncodings
  decide

/-! ### Transactions -/

theorem decodeTransaction_of_bit {p : BitVec 70} (h : p.getLsbD 69 = true) :
    decodeTransaction p = .wr (p.extractLsb' 64 5) (p.extractLsb' 0 64) := if_pos h

theorem decodeTransaction_of_not_bit {p : BitVec 70} (h : p.getLsbD 69 = false) :
    decodeTransaction p = .rd (p.extractLsb' 64 5) := if_neg (by rw [h]; decide)

/-- The three fields of a pattern. -/
theorem eq_append_fields (p : BitVec 70) :
    p = BitVec.ofBool (p.getLsbD 69) ++ (p.extractLsb' 64 5 ++ p.extractLsb' 0 64) := by
  refine BitVec.eq_of_getLsbD_eq fun j hj => ?_
  simp only [BitVec.getLsbD_append, BitVec.getLsbD_extractLsb', BitVec.getLsbD_ofBool]
  by_cases h64 : j < 64
  · simp [h64, show j < 69 by omega]
  by_cases h69 : j < 69
  · simp [h64, h69, show j - 64 < 5 by omega, show 64 + (j - 64) = j by omega]
  · obtain rfl : j = 69 := by omega
    simp

theorem fields_append (rw : BitVec 1) (idx : BitVec 5) (data : U64) :
    (rw ++ (idx ++ data)).getLsbD 69 = rw.getLsbD 0 ∧ (rw ++ (idx ++ data)).extractLsb' 64 5 = idx ∧
    (rw ++ (idx ++ data)).extractLsb' 0 64 = data := by
  refine ⟨?_, BitVec.eq_of_getLsbD_eq fun j hj => ?_, BitVec.eq_of_getLsbD_eq fun j hj => ?_⟩
  · rw [BitVec.getLsbD_append]
    rfl
  · rw [BitVec.getLsbD_extractLsb', BitVec.getLsbD_append, BitVec.getLsbD_append]
    simp [hj, show 64 + j < 69 by omega]
  · rw [BitVec.getLsbD_extractLsb', BitVec.getLsbD_append, BitVec.getLsbD_append]
    simp [hj, show j < 69 by omega]

theorem decodeTransaction_encodeTransaction (t : Transaction) : decodeTransaction (encodeTransaction t) = t := by
  cases t with
  | wr idx data =>
    obtain ⟨hbit, hidx, hdata⟩ := fields_append 1#1 idx data
    rw [encodeTransaction, decodeTransaction_of_bit hbit, hidx, hdata]
  | rd idx =>
    obtain ⟨hbit, hidx, -⟩ := fields_append 0#1 idx 0#64
    rw [encodeTransaction, decodeTransaction_of_not_bit hbit, hidx]

/-- Settles O3: a pattern is its three fields one after another (`eq_append_fields`, `fields_append`). -/
theorem transactionPattern : Obligations.TransactionPattern := by
  unfold Obligations.TransactionPattern
  refine ⟨decodeTransaction_encodeTransaction, fun p h => ?_, fun p => decodeTransaction_of_not_bit⟩
  rw [decodeTransaction_of_bit h, encodeTransaction]
  conv_rhs => rw [eq_append_fields p, h]
  rfl

/-- Settles O5: both directions by evaluation over the 32 indices. -/
theorem registerIndices : Obligations.RegisterIndices := by
  unfold Obligations.RegisterIndices
  intro idx r
  refine ⟨fun h => ?_, fun h => ?_⟩
  · have hback : ∀ idx : BitVec 5, ∀ r ∈ regOfIndex idx, idx = indexOfReg r := by decide
    exact hback idx r h
  · rw [h]
    cases r <;> rfl

/-! ### The step of a command -/

/-- Settles O6: the fetch finds the command, or nothing. -/
theorem stepRunsCommand : Obligations.StepRunsCommand := by
  unfold Obligations.StepRunsCommand
  refine ⟨fun s p rest v i hp hd hi => step_of_due_command (State.due_of_wr_command hp hd hi), fun s hs => ?_⟩
  have hidle : s.due = .idle := by simp [State.due, hs]
  simp [step, hidle]

/-- Settles O7: the issuing transaction reads back as the write of a datum that decodes to the command. -/
theorem issuedCommandRuns : Obligations.IssuedCommandRuns := by
  unfold Obligations.IssuedCommandRuns
  intro s i rest hp
  exact step_of_due_command (State.due_of_wr_command hp (decodeTransaction_encodeTransaction (issue i)) (decode_encodeDatum i))

theorem exec_next (i : Instr) (s : State) : ∃ t, exec i s = .next t := ⟨_, exec_eq_commandBody i s⟩

/-- Settles O8: every kind of step answers a next state, a command's too (`exec_next`). -/
theorem stepNeverStops : Obligations.StepNeverStops := by
  unfold Obligations.StepNeverStops
  intro s
  obtain ⟨-, h⟩ | ⟨i, -, h⟩ | ⟨v, -, h⟩ | ⟨idx, v, -, h⟩ | ⟨idx, -, h⟩ | ⟨ev, -, h⟩ := step_cases s
  case inr.inl =>
    rw [h]
    exact exec_next i s
  all_goals exact ⟨_, h⟩

end Sys2Proof.Machine
end

section
/-! PROOFS. Reset (spec/70_reset_and_hazards.md R320, R325), the registers as the host reads them (spec/10_state.md R40, R43), and
what `CAP` selects (R271). -/

namespace Sys2Proof.Machine

open Sys2Proof

/-! ### Reset -/

/-- Settles O10: the step of a reset event is `hardReset`, which writes the literals of the reset state. -/
theorem resetEvent : Obligations.ResetEvent := by
  unfold Obligations.ResetEvent
  intro s rest hp
  refine ⟨_, step_reset (by simp [State.due, hp]), ?_⟩
  have hstatus : (hardReset s.retire).status = 0#32 := (by decide : State.reset.status = 0#32)
  have hinbox : (hardReset s.retire).inbox = rest := by simp [hardReset, hp]
  exact ⟨rfl, hstatus, rfl, rfl, rfl, rfl, rfl, rfl, rfl, rfl, rfl, rfl, rfl, rfl, rfl, rfl, rfl, rfl, rfl, hinbox⟩

/-- Settles O59: every field of the reset state is a literal. -/
theorem resetSatisfiesInv : Obligations.ResetSatisfiesInv := by
  unfold Obligations.ResetSatisfiesInv
  exact
    { memory := Memory.empty_wf
      fill := by decide
      live := by decide
      idle := rfl
      rem := by decide
      running := rfl
      notFatal := by decide
      errInfo := fun _ => rfl
      cap := rfl
      sel := .inl rfl }

/-- Settles O11: each of the fourteen is run from the reset state, where the input is empty. -/
theorem firstCommands : Obligations.FirstCommands := by
  unfold Obligations.FirstCommands
  refine ⟨⟨_, rfl, ?_⟩, ⟨_, rfl, ?_⟩, ⟨_, rfl, ?_⟩, ⟨_, rfl, ?_⟩, ⟨_, rfl, ?_⟩, ⟨_, rfl, ?_⟩, ?_, ⟨_, rfl, ?_⟩, ?_, ?_⟩
  case refine_7 | refine_9 | refine_10 =>
    intro i hi
    fin_cases hi <;> exact ⟨_, rfl, by decide⟩
  all_goals decide

/-! ### Registers -/

theorem getLsbD_capWord (c : BitVec 32) (j : Nat) : (capWord c).getLsbD j = (decide (j < 4) && c.getLsbD j) := by
  have hmask : (0x0000000F#32).getLsbD j = decide (j < 4) := by
    by_cases hj : j < 32
    · interval_cases j <;> rfl
    · rw [BitVec.getLsbD_of_ge _ _ (by omega)]
      simp; omega
  rw [capWord, BitVec.getLsbD_and, hmask, Bool.and_comm]

/-- Settles O12: the read is `step_rd_of_reg`; the wider registers are zero-extended, so their bits and values are those of
their words. -/
theorem readRegisters : Obligations.ReadRegisters := by
  unfold Obligations.ReadRegisters
  refine ⟨fun s p rest idx r hp hd hr => step_rd_of_reg hp hd hr,
    fun s => ⟨rfl, rfl, rfl, rfl, rfl, rfl, rfl, rfl, ?_, fun k hk => ?_, fun h => ?_, fun x h => ?_⟩⟩
  · cases h : s.err <;> simp [regValue, ErrCode.word, ErrCode.code, h]
  · rw [regValue, BitVec.getLsbD_setWidth, getLsbD_capWord]
    simp [hk]
  · simp [regValue, selWord, h]
  · cases x <;> simp [regValue, selWord, Impl.code, h]

/-- Settles O13: each flag shows at its own bit (`State.getLsbD_status`), and none above bit 6. -/
theorem statusBits : Obligations.StatusBits := by
  unfold Obligations.StatusBits
  intro s
  have hbit (j : Nat) (hj : j < 32) := s.getLsbD_status hj
  refine ⟨?_, ?_, ?_, ?_, ?_, ?_, ?_, fun k hk => ?_, rfl⟩
  case refine_8 =>
    by_cases hlt : k < 32
    · rw [hbit k hlt]
      simp
      omega
    · exact BitVec.getLsbD_of_ge _ _ (by omega)
  all_goals
    rw [hbit _ (by decide)]
    simp [bne, BEq.beq]

/-! ### The dispatcher's selection (R271) -/

/-- Settles O45: the selection is a function of the four capability bits, which are the value modulo 16. -/
theorem dispatchTable : Obligations.DispatchTable := by
  unfold Obligations.DispatchTable
  intro c
  have hsame : resolveCap (capWord c) = resolveCap c := by
    simp only [resolveCap, capAesr, capSimdW, capSimdN, capW64, getLsbD_capWord]
    rfl
  refine ⟨hsame.symm, ?_⟩
  have hbit (j : Nat) (hj : j < 4) : c.getLsbD j = (c.toNat % 2 ^ 4).testBit j := by
    rw [Nat.testBit_mod_two_pow, decide_eq_true hj, Bool.true_and, BitVec.getLsbD]
  have hlt : c.toNat % 16 < 16 := Nat.mod_lt _ (by decide)
  simp only [resolveCap, capAesr, capSimdW, capSimdN, capW64, hbit 0 (by decide), hbit 1 (by decide), hbit 2 (by decide),
    hbit 3 (by decide)]
  norm_num only
  generalize c.toNat % 16 = n at hlt
  interval_cases n <;> rfl

/-! ### The worked examples of the mixing datapath -/

/-- Settles O55: each example is evaluated. -/
theorem finisherExamples : Obligations.FinisherExamples := by
  unfold Obligations.FinisherExamples
  decide

/-- Settles O56: each example is evaluated. -/
theorem blockStepExamples : Obligations.BlockStepExamples := by
  unfold Obligations.BlockStepExamples
  decide

/-! ### Rotation -/

theorem getLsbD_ror {w : Nat} (v : BitVec w) {n i : Nat} (hn : n < w) (hi : i < w) :
    ((v >>> n) ||| (v <<< (w - n))).getLsbD i = v.getLsbD ((i + n) % w) := by
  rw [BitVec.getLsbD_or, BitVec.getLsbD_ushiftRight, BitVec.getLsbD_shiftLeft]
  by_cases h : i + n < w
  · rw [Nat.mod_eq_of_lt h]
    simp [show i < w - n by omega, Nat.add_comm]
  · have hmod : (i + n) % w = i - (w - n) := by
      rw [Nat.mod_eq_sub_mod (by omega), Nat.mod_eq_of_lt (by omega)]
      omega
    rw [hmod, BitVec.getLsbD_of_ge v (n + i) (by omega)]
    simp [hi, show ¬ i < w - n by omega]

/-- Settles O52: the rotation is the or of two shifts (`getLsbD_ror`), and the amount 0 leaves the operand. -/
theorem rotateBits : Obligations.RotateBits := by
  unfold Obligations.RotateBits
  refine ⟨fun v n i hn hi => ?_, fun v n i hn hi => ?_⟩
  · by_cases h : n = 0
    · simp [uRot64, h, Nat.mod_eq_of_lt hi]
    · rw [uRot64, if_neg h, getLsbD_ror v hn hi]
  · by_cases h : n = 0
    · simp [uRot32, h, Nat.mod_eq_of_lt hi]
    · rw [uRot32, if_neg h, getLsbD_ror v hn hi]

end Sys2Proof.Machine
end

section
/-! PROOFS. Memory as data (spec/20_memory.md R70): canonical memories are determined by their bytes, and the events of the host
and the platform are local (R22, R73, R88, R89). -/

namespace Sys2Proof.Machine

open Sys2Proof

/-! ### Canonical memories -/

/-- The cells of a canonical memory. -/
structure CanonicalCells (cs : List Host.Cell) : Prop where
  sorted : (cs.map Prod.fst).Pairwise (· < ·)
  listed : ∀ c ∈ cs, c.1 < 2 ^ 64 ∧ c.2 ≠ Memory.unlisted

theorem CanonicalCells.tail {c : Host.Cell} {cs : List Host.Cell} (h : CanonicalCells (c :: cs)) : CanonicalCells cs :=
  ⟨(List.pairwise_cons.1 h.sorted).2, fun x hx => h.listed x (List.mem_cons_of_mem c hx)⟩

theorem cellAt_of_forall_lt {cs : List Host.Cell} {a : Nat} (h : ∀ c ∈ cs, a < c.1) : cellAt cs a = Memory.unlisted := by
  induction cs with
  | nil => rfl
  | cons c rest ih =>
    have hc : c.1 ≠ a := (h c List.mem_cons_self).ne'
    rw [cellAt, if_neg hc]
    exact ih fun x hx => h x (List.mem_cons_of_mem c hx)

theorem CanonicalCells.cellAt_head {c : Host.Cell} {cs : List Host.Cell} (h : CanonicalCells (c :: cs)) :
    cellAt (c :: cs) c.1 ≠ Memory.unlisted := by
  rw [cellAt, if_pos rfl]
  exact (h.listed c List.mem_cons_self).2

/-- Below its first address a canonical list has nothing. -/
theorem CanonicalCells.cellAt_of_lt_head {c : Host.Cell} {cs : List Host.Cell} (h : CanonicalCells (c :: cs)) {a : Nat}
    (ha : a < c.1) : cellAt (c :: cs) a = Memory.unlisted := by
  refine cellAt_of_forall_lt fun x hx => ?_
  obtain rfl | hx := List.mem_cons.1 hx
  · exact ha
  · exact ha.trans ((List.pairwise_cons.1 h.sorted).1 _ (List.mem_map_of_mem hx))

theorem CanonicalCells.cellAt_tail_head {c : Host.Cell} {cs : List Host.Cell} (h : CanonicalCells (c :: cs)) :
    cellAt cs c.1 = Memory.unlisted :=
  cellAt_of_forall_lt fun _ hx => (List.pairwise_cons.1 h.sorted).1 _ (List.mem_map_of_mem hx)

/-- The first addresses agree, since each list has a byte at its own and nothing below it; so do the bytes there. -/
theorem cells_eq_of_cellAt_eq {cs cs' : List Host.Cell} (h : CanonicalCells cs) (h' : CanonicalCells cs')
    (heq : ∀ a < 2 ^ 64, cellAt cs a = cellAt cs' a) : cs = cs' := by
  induction cs generalizing cs' with
  | nil =>
    cases cs' with
    | nil => rfl
    | cons c' rest' => exact absurd (heq c'.1 (h'.listed c' List.mem_cons_self).1).symm h'.cellAt_head
  | cons c rest ih =>
    have hc := (h.listed c List.mem_cons_self).1
    cases cs' with
    | nil => exact absurd (heq c.1 hc) h.cellAt_head
    | cons c' rest' =>
      have hc' := (h'.listed c' List.mem_cons_self).1
      have haddr : c.1 = c'.1 := by
        by_contra hne
        obtain hlt | hlt := Nat.lt_or_gt_of_ne hne
        · exact h.cellAt_head ((heq c.1 hc).trans (h'.cellAt_of_lt_head hlt))
        · exact h'.cellAt_head ((heq c'.1 hc').symm.trans (h.cellAt_of_lt_head hlt))
      have hbyte : c.2 = c'.2 := by
        have := heq c.1 hc
        rwa [cellAt, if_pos rfl, cellAt, if_pos haddr.symm] at this
      have hrest : rest = rest' := by
        refine ih h.tail h'.tail fun a ha => ?_
        by_cases hac : c.1 = a
        · rw [← hac, h.cellAt_tail_head, haddr, h'.cellAt_tail_head]
        · have := heq a ha
          rwa [cellAt, if_neg hac, cellAt, if_neg (haddr ▸ hac)] at this
      rw [hrest, Prod.ext haddr hbyte]

/-- Settles O57: by induction on both lists of cells (`cells_eq_of_cellAt_eq`). -/
theorem canonicalMemory : Obligations.CanonicalMemory := by
  unfold Obligations.CanonicalMemory
  rintro m m' ⟨hsorted, hlisted, -⟩ ⟨hsorted', hlisted', -⟩ heq
  exact cells_eq_of_cellAt_eq ⟨hsorted, hlisted⟩ ⟨hsorted', hlisted'⟩ heq

/-! ### What the host and the platform do to memory -/

@[simp] theorem Memory.store_draw (m : Memory) (a : Nat) (b : Byte) : (m.store a b).draw = m.draw := by
  unfold Memory.store
  split <;> rfl

theorem Memory.mapped_mapPage (m : Memory) (p a : Nat) :
    (m.mapPage p).mapped a = (decide (a / pageSize = p) || m.mapped a) := by
  simp only [Memory.mapped, Memory.mapPage, List.contains_eq_mem, List.mem_filter, Bool.decide_and]
  by_cases h : a / pageSize = p <;> simp [h]

theorem Memory.mapped_unmapPage (m : Memory) (p a : Nat) :
    (m.unmapPage p).mapped a = (decide (a / pageSize ≠ p) && m.mapped a) := by
  simp only [Memory.mapped, Memory.unmapPage, List.contains_eq_mem, mem_putPage, Bool.decide_or]
  by_cases h : a / pageSize = p <;> simp [h]

theorem Memory.byte_of_racing {m : Memory} {a : Nat} (h : a / pageSize ∈ m.racing) :
    m.byte a = Config.racedByte m.draw a := by
  simp [Memory.byte, h]

theorem Memory.byte_of_not_racing {m : Memory} {a : Nat} (h : a / pageSize ∉ m.racing) : m.byte a = m.held a := by
  simp [Memory.byte, h]

/-- An event that is no transaction takes its place at the head of the port. -/
theorem step_of_event {s : State} {ev : HostEvent} {rest : List HostEvent} (hp : s.inbox = ev :: rest)
    (hev : ∀ t, ev ≠ .port t) : step s = .next (environment ev s) := by
  refine step_of_due_event ?_
  cases ev with
  | port t => exact absurd rfl (hev t)
  | store _ _ | mapPage _ | unmapPage _ | race _ | reset => simp [State.due, hp]

/-- Settles O58: each event replaces the memory by what the operation of its name leaves. -/
theorem hostMemory : Obligations.HostMemory := by
  unfold Obligations.HostMemory
  have hmem {s : State} {ev : HostEvent} {rest : List HostEvent} {m : Memory} (hp : s.inbox = ev :: rest)
      (hev : ∀ t, ev ≠ .port t) (henv : environment ev s = s.retire.withMem m) :
      step s = .next { s with inbox := rest, reply := none, mem := m } := by
    rw [step_of_event hp hev, henv, State.retire_of_inbox hp]
    rfl
  refine ⟨fun s rest x b hp => ?_, fun s rest p hp => ?_, fun s rest p hp => ?_, fun s rest ps hp => ?_,
    fun m a => ⟨Memory.byte_of_racing, Memory.byte_of_not_racing⟩⟩
  · refine ⟨s.mem.store x.toNat b, hmem hp (by simp) rfl, ?_, fun a ha => ?_, by simp, by simp, by simp⟩
    · rw [Memory.held_store, if_pos rfl]
    · rw [Memory.held_store, if_neg ha]
  · exact ⟨s.mem.mapPage p.toNat, hmem hp (by simp) rfl, rfl, rfl, rfl, s.mem.mapped_mapPage p.toNat⟩
  · exact ⟨s.mem.unmapPage p.toNat, hmem hp (by simp) rfl, rfl, rfl, rfl, s.mem.mapped_unmapPage p.toNat⟩
  · refine ⟨s.mem.race (ps.map BitVec.toNat), hmem hp (by simp) rfl, rfl, rfl, fun q => ?_, Nat.succ_ne_self _⟩
    simp [Memory.race]

end Sys2Proof.Machine
end

section
/-! PROOFS. The value of the tail read (spec/40_memory_unit.md R133): whichever way it goes, the mask or shift keeps the valid
bytes. -/

namespace Sys2Proof.Machine

open Sys2Proof

/-! ### Words as values of their bytes -/

theorem leValue_append (bs cs : List Byte) : leValue (bs ++ cs) = leValue bs + 256 ^ bs.length * leValue cs := by
  induction bs with
  | nil => simp [leValue]
  | cons b rest ih =>
    rw [List.cons_append, leValue, leValue, ih, List.length_cons, pow_succ']
    ring

theorem beValue_append (bs cs : List Byte) : beValue (bs ++ cs) = beValue bs * 256 ^ cs.length + beValue cs := by
  induction bs with
  | nil => simp [beValue]
  | cons b rest ih =>
    rw [List.cons_append, beValue, beValue, ih, List.length_append, pow_add]
    ring

theorem beValue_lt (bs : List Byte) : beValue bs < 256 ^ bs.length := by
  induction bs with
  | nil => simp [beValue]
  | cons b rest ih =>
    have hb : b.toNat + 1 ≤ 256 := b.isLt
    rw [beValue, List.length_cons, pow_succ']
    calc b.toNat * 256 ^ rest.length + beValue rest
        < (b.toNat + 1) * 256 ^ rest.length := by rw [Nat.add_one_mul]; omega
      _ ≤ 256 * 256 ^ rest.length := Nat.mul_le_mul_right _ hb

theorem shiftRight_bytes (x n : Nat) : x >>> (8 * n) = x / 256 ^ n := by
  rw [Nat.shiftRight_eq_div_pow, pow_mul]
  rfl

theorem and_byteMask (x n : Nat) : x &&& (2 ^ (8 * n) - 1) = x % 256 ^ n := by
  rw [Nat.and_two_pow_sub_one_eq_mod, pow_mul]
  rfl

/-- What a forward tail read keeps of the full word: the bytes in front. -/
theorem wordValue_front (e : Endian) (bs cs : List Byte) :
    (match e with
      | .little => wordValue e (bs ++ cs) &&& (2 ^ (8 * bs.length) - 1)
      | .big => wordValue e (bs ++ cs) >>> (8 * cs.length)) = wordValue e bs := by
  cases e with
  | little =>
    show leValue (bs ++ cs) &&& _ = leValue bs
    rw [and_byteMask, leValue_append, Nat.add_mul_mod_self_left, Nat.mod_eq_of_lt (leValue_lt bs)]
  | big =>
    show beValue (bs ++ cs) >>> _ = beValue bs
    rw [shiftRight_bytes, beValue_append, Nat.mul_comm, Nat.mul_add_div (by positivity),
      Nat.div_eq_of_lt (beValue_lt cs), Nat.add_zero]

/-- What an underside read keeps of the full word: the bytes at its end. -/
theorem wordValue_back (e : Endian) (bs cs : List Byte) :
    (match e with
      | .little => wordValue e (bs ++ cs) >>> (8 * bs.length)
      | .big => wordValue e (bs ++ cs) &&& (2 ^ (8 * cs.length) - 1)) = wordValue e cs := by
  cases e with
  | little =>
    show leValue (bs ++ cs) >>> _ = leValue cs
    rw [shiftRight_bytes, leValue_append, Nat.add_mul_div_left _ _ (by positivity),
      Nat.div_eq_of_lt (leValue_lt bs), Nat.zero_add]
  | big =>
    show beValue (bs ++ cs) &&& _ = beValue cs
    rw [and_byteMask, beValue_append, Nat.mul_add_mod', Nat.mod_eq_of_lt (beValue_lt cs)]

/-! ### Stretches of memory -/

theorem Memory.bytes_add (m : Memory) (a n k : Nat) : m.bytes a (n + k) = m.bytes a n ++ m.bytes (a + n) k := by
  induction n generalizing a with
  | zero => simp [Memory.bytes]
  | succ n ih =>
    rw [show n + 1 + k = n + k + 1 by omega, Memory.bytes_succ, ih, Memory.bytes_succ, List.cons_append,
      show a + 1 + n = a + (n + 1) by omega]

theorem Memory.take_bytes (m : Memory) (a : Nat) {k n : Nat} (h : k ≤ n) : (m.bytes a n).take k = m.bytes a k := by
  obtain ⟨d, rfl⟩ := Nat.exists_eq_add_of_le h
  rw [Memory.bytes_add, List.take_left' (m.bytes_length a k)]

theorem Memory.drop_bytes (m : Memory) (a : Nat) {k n : Nat} (h : k ≤ n) :
    (m.bytes a n).drop k = m.bytes (a + k) (n - k) := by
  obtain ⟨d, rfl⟩ := Nat.exists_eq_add_of_le h
  rw [Memory.bytes_add, List.drop_left' (m.bytes_length a k), Nat.add_sub_cancel_left]

/-! ### The tail read -/

theorem uFetch_eq_ok {m : Memory} {W pos x : Nat} {e : Endian} (h : uFetch m W e pos = .ok x) :
    x = wordValue e (m.bytes pos W) := by
  obtain ⟨hok, -⟩ | ⟨i, -, herr, -⟩ := uFetch_cases m W e pos
  · exact (Except.ok.inj (hok.symm.trans h)).symm
  · cases herr.symm.trans h

/-- The tail read goes from the underside only at a page offset of at least a word, so its start does not pass 0. -/
theorem le_mod_of_not_readsForward {W pos : Nat} {a : Discipline} (hW : WordSize W)
    (h : ¬ readsForward W a pos = true) : a = .unaligned ∧ W ≤ pos % pageSize := by
  rw [readsForward, Bool.or_eq_true, not_or, beq_iff_eq, beq_iff_eq, and_pageSize_sub_eq_zero_iff hW] at h
  obtain ⟨ha, hoff⟩ := h
  refine ⟨?_, by omega⟩
  cases a with
  | unaligned => rfl
  | aligned => exact absurd rfl ha

/-- A tail read that succeeds answers the word of its valid bytes. -/
theorem uTail_eq_ok {m : Memory} {W pos r x : Nat} {e : Endian} {a : Discipline} (hW : WordSize W) (hrW : r ≤ W)
    (h : uTail m W e a pos r = .ok x) : x = wordValue e (m.bytes pos r) := by
  obtain ⟨d, rfl⟩ := Nat.exists_eq_add_of_le hrW
  by_cases hf : readsForward (r + d) a pos = true
  · simp only [uTail, if_pos hf, Nat.add_sub_cancel_left] at h
    cases hx : uFetch m (r + d) e pos with
    | error y => simp [hx] at h
    | ok y =>
      have hfront := wordValue_front e (m.bytes pos r) (m.bytes (pos + r) d)
      rw [← Memory.bytes_add, ← uFetch_eq_ok hx, Memory.bytes_length, Memory.bytes_length] at hfront
      rw [hx] at h
      exact (Except.ok.inj h).symm.trans hfront
  · obtain ⟨-, hoff⟩ := le_mod_of_not_readsForward hW hf
    have hpos : pos - d + d = pos := Nat.sub_add_cancel (by have := Nat.mod_le pos pageSize; omega)
    simp only [uTail, if_neg hf, Nat.add_sub_cancel_left] at h
    cases hx : uFetch m (r + d) e (pos - d) with
    | error y => simp [hx] at h
    | ok y =>
      have hback := wordValue_back e (m.bytes (pos - d) d) (m.bytes pos r)
      rw [← hpos, Nat.add_sub_cancel, ← Memory.bytes_add, Nat.add_comm d r, hpos, ← uFetch_eq_ok hx, Memory.bytes_length,
        Memory.bytes_length] at hback
      rw [hx] at h
      exact (Except.ok.inj h).symm.trans hback

theorem uTail_of_mapped {m : Memory} {W pos r : Nat} {e : Endian} {a : Discipline} (hW : WordSize W) (hr : 1 ≤ r)
    (hrW : r ≤ W) (ha : a = .aligned → pos % W = 0) (hm : m.MappedOn pos r) :
    uTail m W e a pos r = .ok (wordValue e (m.bytes pos r)) := by
  have hreads := readsAll_uTail (m := m) (e := e) hW hr hrW ha
  cases hx : uTail m W e a pos r with
  | ok x => rw [uTail_eq_ok hW hrW hx]
  | error x =>
    rw [hx] at hreads
    exact absurd hm hreads

/-- Settles O50: the read gets through where the valid bytes are mapped, and what it answers is their word. -/
theorem tailReadValue : Obligations.TailReadValue := by
  unfold Obligations.TailReadValue
  exact fun m W e a pos r hW hr hrW ha hm => uTail_of_mapped hW hr hrW ha hm

end Sys2Proof.Machine
end

section
/-! PROOFS. The frame of every command (spec/10_state.md R35 to R37, R91): what its body may write and what it leaves, completed or
not, and the ways `SUPD` and the finishing commands end. -/

namespace Sys2Proof.Machine

open Sys2Proof

/-! ### The two ways a body ends -/

/-- A command whose body runs (`exec_cases`), by how its body ends. -/
theorem exec_ends {i : Instr} {s t : State} (h : exec i s = .next t) :
    (s.halt = true ∧ t = s.retire) ∨
    (s.halt = false ∧ 32 ≤ s.stream.fill.toNat ∧ t = (s.retire.startCommand (encode i)).fatal) ∨
    t = s.refusedBy i ∨
    (∃ u, commandBody i (s.retire.startCommand (encode i)) = .ok u ∧ t = u.complete.redraw) ∨
    ((s.err = .none ∨ runsWhilePending i = true) ∧
      ∃ r, commandBody i (s.retire.startCommand (encode i)) = .error r ∧ t = (r.state.raise r.code r.info).redraw) := by
  obtain h | h | ⟨-, -, -, -, h⟩ | ⟨-, -, hgo, h⟩ := exec_cases h
  · exact .inl h
  · exact .inr (.inl h)
  · exact .inr (.inr (.inl h))
  · cases hb : commandBody i (s.retire.startCommand (encode i)) with
    | ok u => exact .inr (.inr (.inr (.inl ⟨u, rfl, by rw [h, hb, settle_ok]⟩)))
    | error r => exact .inr (.inr (.inr (.inr ⟨hgo, r, rfl, by rw [h, hb, settle_error]⟩)))

theorem commandBody_sameGiven (i : Instr) (s : State) : EndsIn s.SameGiven id (commandBody i s) := by
  cases i with
  | nop => exact .refl s
  | clrerr => exact s.sameGiven_clearError
  | hash0 e a => exact hash0Body_sameGiven e a s
  | hash1 e a => exact oneShot_bind_withResult_sameGiven _ _ _ s _ _
  | hash2 e a => exact oneShot_bind_withResult_sameGiven _ _ _ s _ _
  | hash3 a => exact oneShot_bind_withResult_sameGiven _ _ _ s _ _
  | hash3x a => exact oneShot_bind_withResult_sameGiven _ _ _ s _ _
  | sinit => exact s.sameGiven_withStream _
  | supd => exact supdBody_sameGiven s
  | sfin => exact sfinBody_sameGiven s
  | sfinx => exact sfinxBody_sameGiven s
  | ainit => exact s.sameGiven_withAdapter s.seedX
  | awrite e a => exact awriteBody_sameGiven e a s
  | afin => exact afinBody_sameGiven s

/-! ### What the body of each command may write -/

/-- What the body of a command leaves besides what it is given, whether it completes or raises an error; `SEL` it leaves
resolved if it dispatches. -/
structure State.BodyFrame (i : Instr) (s u : State) : Prop where
  stream : i.streaming = false → u.stream = s.stream
  work : i.oneShot = false → i.dispatched = false → u.work.acc = s.work.acc ∧ u.work.rem = s.work.rem
  adapter : i.adapter = false → u.astate = s.astate ∧ u.avalid = s.avalid
  sel : u.sel = s.selAfter i
  result : i.producesDigest = false → u.resLo = s.resLo ∧ u.resHi = s.resHi

theorem State.BodyFrame.refl {i : Instr} {s : State} (h : s.selAfter i = s.sel) : s.BodyFrame i s :=
  ⟨fun _ => rfl, fun _ _ => ⟨rfl, rfl⟩, fun _ => ⟨rfl, rfl⟩, h.symm, fun _ => ⟨rfl, rfl⟩⟩

theorem State.selAfter_of_not_dispatched {i : Instr} (h : i.dispatched = false) (s : State) : s.selAfter i = s.sel :=
  if_neg fun hi => by simp [h] at hi

theorem oneShot_endsIn {P : State → Prop} {s : State} (hP : ∀ w, P (s.withWork w)) (W : Nat) (a : Discipline)
    (body : Work → Except BusStop Work) : EndsIn P id (oneShot W a body s) := by
  obtain ⟨-, h⟩ | ⟨-, -, h⟩ | ⟨-, -, ⟨w, -, h⟩ | ⟨x, -, h⟩⟩ := oneShot_cases W a body s <;> rw [h]
  · exact hP s.work
  · exact hP s.work
  · exact hP w
  · exact hP x.work

theorem uBody0_endsIn {P : State → Prop} {s : State} (hP : ∀ w, P (s.withWork w)) (impl : Impl) (e : Endian)
    (a : Discipline) (seed : U64) : EndsIn P Prod.fst (uBody0 impl e a seed s) := by
  cases impl with
  | gen1 => exact (oneShot_endsIn hP _ _ _).bind fun _ ht => ht
  | gen2 => exact (oneShot_endsIn hP _ _ _).bind fun _ ht => ht
  | narrowRound | narrowSimd | wideSimd => exact hP s.work

/-- A one-shot command that does not dispatch. -/
theorem oneShot_withResult_frame {i : Instr} {s : State} (hi : i.oneShot = true) (hd : i.dispatched = false)
    (hp : i.producesDigest = true) (W : Nat) (a : Discipline) (body : Work → Except BusStop Work) (hi' lo : State → U64) :
    EndsIn (s.BodyFrame i) id (oneShot W a body s >>= fun t => .ok (t.withResult (hi' t) (lo t))) := by
  have hsel := (s.selAfter_of_not_dispatched hd).symm
  have hwork (w : Work) : s.BodyFrame i (s.withWork w) :=
    ⟨fun _ => rfl, fun h => by simp [hi] at h, fun _ => ⟨rfl, rfl⟩, hsel, fun _ => ⟨rfl, rfl⟩⟩
  exact (oneShot_endsIn hwork W a body).bind fun t ht =>
    ⟨ht.stream, fun h => by simp [hi] at h, ht.adapter, ht.sel, fun h => by simp [hp] at h⟩

/-- Any writes of the working bank after resolution. -/
theorem State.bodyFrame_checked {i : Instr} (hd : i.dispatched = true) (s : State) (w : Work) :
    s.BodyFrame i ((s.checked i).withWork w) :=
  ⟨fun _ => rfl, fun _ h => by simp [hd] at h, fun _ => ⟨rfl, rfl⟩, rfl, fun _ => ⟨rfl, rfl⟩⟩

theorem hash0Body_frame (e : Endian) (a : Discipline) (s : State) :
    EndsIn (s.BodyFrame (.hash0 e a)) id (hash0Body e a s) := by
  rw [hash0Body, uResolve_eq_checked (i := .hash0 e a) rfl (fun h => by cases h)]
  exact (uBody0_endsIn (s.bodyFrame_checked rfl) _ e a _).bind fun x hx =>
    ⟨hx.stream, hx.work, hx.adapter, hx.sel, fun h => by cases h⟩

theorem awriteBody_frame (e : Endian) (a : Discipline) (s : State) :
    EndsIn (s.BodyFrame (.awrite e a)) id (awriteBody e a s) := by
  obtain ⟨ha, h⟩ | ⟨ha, h⟩ := needAdapter_cases s fun s => do
      let r := uResolve s
      let (s, dg) ← uBody0 r.2 e a s.astate r.1
      .ok (s.withAstate dg) <;> rw [awriteBody, h]
  · rw [uResolve_eq_checked (i := .awrite e a) rfl (fun _ => ha)]
    exact (uBody0_endsIn (s.bodyFrame_checked rfl) _ e a _).bind fun x hx =>
      ⟨hx.stream, hx.work, fun h => (by cases h), hx.sel, hx.result⟩
  · exact .refl (if_neg fun h => h.2 ⟨rfl, ha⟩)

/-! ### The streaming commands -/

/-- The run of `SUPD` over its input (R243). -/
abbrev State.supdRun (s : State) : Except (AbsorbStop Nat) Absorb :=
  uAbsorb s.cfg (memBytes s.mem s.addr.toNat) s.len.toNat s.absorbing

/-- The state `SUPD` leaves when its run gets through. -/
def State.supdDone (s : State) (x : Absorb) : State :=
  (s.withWork { s.work with pos := s.addr }).withAbsorbed { x with ctx := { x.ctx with total := x.ctx.total + s.len } }

/-- The state `SUPD` leaves at a bus error (R296). -/
def State.supdStopped (s : State) (y : AbsorbStop Nat) : State :=
  (s.withWork { s.work with pos := s.addr }).withAbsorbed { y.at_ with ctx := { y.at_.ctx with sstate := .none } }

/-- All that `SUPD` can do. -/
theorem supdBody_cases (s : State) :
    (s.stream.sstate ≠ .live ∧ supdBody s = .error ⟨.stream, s.stream.sstate.code.setWidth 64, s⟩) ∨
    (s.stream.sstate = .live ∧ ¬ s.InRange ∧ supdBody s = .error ⟨.range, s.addr, s⟩) ∨
    (s.stream.sstate = .live ∧ s.InRange ∧
      ((∃ x, s.supdRun = .ok x ∧ supdBody s = .ok (s.supdDone x)) ∨
        ∃ y, s.supdRun = .error y ∧ supdBody s = .error ⟨.bus, .ofNat 64 y.why, s.supdStopped y⟩)) := by
  by_cases hl : s.stream.sstate = .live
  swap
  · exact .inl ⟨hl, needLive_of_not_live hl _⟩
  by_cases ho : s.outOfRange = true
  · have hr := (outOfRange_iff s).1 ho
    exact .inr (.inl ⟨hl, by omega, by rw [supdBody, needLive, if_pos hl, if_pos ho]⟩)
  · have hr : s.InRange := Nat.le_of_not_lt fun h => ho ((outOfRange_iff s).2 h)
    refine .inr (.inr ⟨hl, hr, ?_⟩)
    have hbody : supdBody s = match s.supdRun with
        | .ok x => .ok (s.supdDone x)
        | .error y => .error ⟨.bus, .ofNat 64 y.why, s.supdStopped y⟩ := by
      rw [supdBody, needLive, if_pos hl, if_neg ho]
      rfl
    rw [hbody]
    cases s.supdRun with
    | ok x => exact .inl ⟨x, rfl, rfl⟩
    | error y => exact .inr ⟨y, rfl, rfl⟩

/-- The context after the marker (R246, R247). -/
def State.marked (s : State) : Absorb := absorbMarker s.cfg s.absorbing

/-- The state a finishing command leaves, with its digest. -/
def State.finished (s : State) (hi lo : U64) : State :=
  (s.withAbsorbed { s.marked with ctx := { s.marked.ctx with sstate := .done } }).withResult hi lo

theorem sfinBody_of_live {s : State} (h : s.stream.sstate = .live) :
    sfinBody s = .ok (s.finished 0#64 (streamDigest64 s.cfg s.marked.ctx)) := if_pos h

theorem sfinxBody_of_live {s : State} (h : s.stream.sstate = .live) :
    sfinxBody s = .ok (s.finished (streamDigest128 s.cfg s.marked.ctx).1 (streamDigest128 s.cfg s.marked.ctx).2) := if_pos h

theorem sfinBody_of_not_live {s : State} (h : s.stream.sstate ≠ .live) :
    sfinBody s = .error ⟨.stream, s.stream.sstate.code.setWidth 64, s⟩ := needLive_of_not_live h _

theorem sfinxBody_of_not_live {s : State} (h : s.stream.sstate ≠ .live) :
    sfinxBody s = .error ⟨.stream, s.stream.sstate.code.setWidth 64, s⟩ := needLive_of_not_live h _

theorem supdBody_frame (s : State) : EndsIn (s.BodyFrame .supd) id (supdBody s) := by
  have hframe (x : Absorb) : s.BodyFrame .supd ((s.withWork { s.work with pos := s.addr }).withAbsorbed x) :=
    ⟨fun h => (by cases h), fun _ _ => ⟨rfl, rfl⟩, fun _ => ⟨rfl, rfl⟩, rfl, fun _ => ⟨rfl, rfl⟩⟩
  obtain ⟨-, h⟩ | ⟨-, -, h⟩ | ⟨-, -, ⟨x, -, h⟩ | ⟨y, -, h⟩⟩ := supdBody_cases s <;> rw [h]
  · exact .refl rfl
  · exact .refl rfl
  · exact hframe _
  · exact hframe _

/-- Every body, at its end or where it raises an error. -/
theorem commandBody_frame (i : Instr) (s : State) : EndsIn (s.BodyFrame i) id (commandBody i s) := by
  have hfinish {i : Instr} (hs : i.streaming = true) (hd : i.dispatched = false) (hp : i.producesDigest = true)
      (hi lo : U64) : s.BodyFrame i (s.finished hi lo) :=
    ⟨fun h => by simp [hs] at h, fun _ _ => ⟨rfl, rfl⟩, fun _ => ⟨rfl, rfl⟩, (s.selAfter_of_not_dispatched hd).symm,
      fun h => by simp [hp] at h⟩
  cases i with
  | nop => exact .refl rfl
  | clrerr => exact ⟨fun _ => rfl, fun _ _ => ⟨rfl, rfl⟩, fun _ => ⟨rfl, rfl⟩, rfl, fun _ => ⟨rfl, rfl⟩⟩
  | hash0 e a => exact hash0Body_frame e a s
  | hash1 e a => exact oneShot_withResult_frame rfl rfl rfl _ _ _ _ _
  | hash2 e a => exact oneShot_withResult_frame rfl rfl rfl _ _ _ _ _
  | hash3 a => exact oneShot_withResult_frame rfl rfl rfl _ _ _ _ _
  | hash3x a => exact oneShot_withResult_frame rfl rfl rfl _ _ _ _ _
  | sinit => exact ⟨fun h => (by cases h), fun _ _ => ⟨rfl, rfl⟩, fun _ => ⟨rfl, rfl⟩, rfl, fun _ => ⟨rfl, rfl⟩⟩
  | supd => exact supdBody_frame s
  | sfin =>
    show EndsIn _ id (sfinBody s)
    exact endsIn_needLive (.refl rfl) (hfinish (i := .sfin) rfl rfl rfl _ _)
  | sfinx =>
    show EndsIn _ id (sfinxBody s)
    exact endsIn_needLive (.refl rfl) (hfinish (i := .sfinx) rfl rfl rfl _ _)
  | ainit => exact ⟨fun _ => rfl, fun _ _ => ⟨rfl, rfl⟩, fun h => (by cases h), rfl, fun _ => ⟨rfl, rfl⟩⟩
  | awrite e a => exact awriteBody_frame e a s
  | afin =>
    show EndsIn _ id (afinBody s)
    exact endsIn_needAdapter (.refl rfl)
      ⟨fun _ => rfl, fun _ _ => ⟨rfl, rfl⟩, fun h => (by cases h), rfl, fun h => by cases h⟩

/-! ### What a failing body leaves besides -/

/-- The result registers and `ASTATE`, which are written only when a command completes (R37, R275). -/
structure State.SameDigests (s u : State) : Prop where
  resLo : u.resLo = s.resLo
  resHi : u.resHi = s.resHi
  astate : u.astate = s.astate

/-- Where a part of a command raises an error, the state satisfies `P`. -/
def RaisesIn {α : Type} (P : State → Prop) (r : Except Raise α) : Prop := ∀ x, r = .error x → P x.state

theorem RaisesIn.of_endsIn {α : Type} {P : State → Prop} {state : α → State} {r : Except Raise α} (h : EndsIn P state r) :
    RaisesIn P r := by
  rintro x rfl
  exact h

theorem RaisesIn.bind_ok {α β : Type} {P : State → Prop} {r : Except Raise α} (h : RaisesIn P r) (f : α → β) :
    RaisesIn P (r >>= fun x => .ok (f x)) := by
  intro x hx
  cases r with
  | ok y => cases hx
  | error y =>
    cases hx
    exact h x rfl

theorem raisesIn_ok {α : Type} (P : State → Prop) (x : α) : RaisesIn P (.ok x) := by
  rintro _ ⟨⟩

theorem raisesIn_needLive {P : State → Prop} {s : State} {k : State → Except Raise State} (hs : P s)
    (hk : RaisesIn P (k s)) : RaisesIn P (needLive s k) := by
  obtain ⟨-, h⟩ | ⟨-, h⟩ := needLive_cases s k <;> rw [h]
  · exact hk
  · rintro _ ⟨⟩
    exact hs

theorem raisesIn_needAdapter {P : State → Prop} {s : State} {k : State → Except Raise State} (hs : P s)
    (hk : RaisesIn P (k s)) : RaisesIn P (needAdapter s k) := by
  obtain ⟨-, h⟩ | ⟨-, h⟩ := needAdapter_cases s k <;> rw [h]
  · exact hk
  · rintro _ ⟨⟩
    exact hs

theorem commandBody_error_sameDigests (i : Instr) (s : State) : RaisesIn s.SameDigests (commandBody i s) := by
  have hrefl : s.SameDigests s := ⟨rfl, rfl, rfl⟩
  have hshot (W : Nat) (a : Discipline) (body : Work → Except BusStop Work) : RaisesIn s.SameDigests (oneShot W a body s) :=
    .of_endsIn (state := id) (oneShot_endsIn (fun _ => ⟨rfl, rfl, rfl⟩) W a body)
  have hbody0 (impl : Impl) (e : Endian) (a : Discipline) (seed : U64) :
      RaisesIn s.SameDigests (uBody0 impl e a seed (uResolve s).1) := by
    rw [uResolve_eq]
    exact .of_endsIn (state := Prod.fst) (uBody0_endsIn (fun _ => ⟨rfl, rfl, rfl⟩) impl e a seed)
  cases i with
  | nop | clrerr | sinit | ainit => exact raisesIn_ok _ _
  | hash0 e a => exact (hbody0 _ e a _).bind_ok _
  | hash1 e a | hash2 e a | hash3 a | hash3x a => exact (hshot _ _ _).bind_ok _
  | supd =>
    refine .of_endsIn (state := fun _ => s) ?_
    obtain ⟨-, h⟩ | ⟨-, -, h⟩ | ⟨-, -, ⟨x, -, h⟩ | ⟨y, -, h⟩⟩ := supdBody_cases s <;> rw [commandBody, h]
    · exact hrefl
    · exact hrefl
    · exact hrefl
    · exact ⟨rfl, rfl, rfl⟩
  | sfin =>
    show RaisesIn _ (sfinBody s)
    exact raisesIn_needLive hrefl (raisesIn_ok _ _)
  | sfinx =>
    show RaisesIn _ (sfinxBody s)
    exact raisesIn_needLive hrefl (raisesIn_ok _ _)
  | awrite e a =>
    show RaisesIn _ (awriteBody e a s)
    exact raisesIn_needAdapter hrefl ((hbody0 _ e a _).bind_ok _)
  | afin =>
    show RaisesIn _ (afinBody s)
    exact raisesIn_needAdapter hrefl (raisesIn_ok _ _)

end Sys2Proof.Machine
end

section
/-! PROOFS. What a command leaves alone, and the statements on `SEL` (spec/10_state.md R46), `SSTATE` (R52), `E_ENGINE`
(spec/60_exceptions.md R302) and the poisoned context (R296), from the frames of the bodies. -/

namespace Sys2Proof.Machine

open Sys2Proof

/-! ### The frame of a command -/

/-- What a command leaves of what the host and the other units own. -/
structure State.ExecFrame (i : Instr) (s t : State) : Prop where
  operands : s.SameOperands t
  inbox : t.inbox = s.inbox.tail
  reply : t.reply = none
  cap : t.cap = s.cap
  cfg : t.cfg = s.cfg
  mem : t.mem = s.mem ∨ t.mem = s.mem.redraw
  stream : i.streaming = false → t.stream = s.stream
  work : i.oneShot = false → i.dispatched = false → t.work.acc = s.work.acc ∧ t.work.rem = s.work.rem
  adapter : i.adapter = false → t.astate = s.astate ∧ t.avalid = s.avalid
  sel : t.sel = s.sel ∨ t.sel = s.selAfter i
  result : i.producesDigest = false ∨ t.done = false → t.resLo = s.resLo ∧ t.resHi = s.resHi

/-- A command that does not reach its body. -/
theorem State.execFrame_of_unchanged {i : Instr} {s t : State}
    (h : ∃ cmd done err info halt phase, t = { s.retire with
      cmd := cmd, done := done, err := err, errInfo := info, halt := halt, work := { s.work with phase := phase } }) :
    s.ExecFrame i t := by
  obtain ⟨cmd, done, err, info, halt, phase, rfl⟩ := h
  exact ⟨⟨rfl, rfl, rfl, rfl⟩, rfl, rfl, rfl, rfl, .inl rfl, fun _ => rfl, fun _ _ => ⟨rfl, rfl⟩, fun _ => ⟨rfl, rfl⟩,
    .inl rfl, fun _ => ⟨rfl, rfl⟩⟩

/-- A command that does, from the state `u` its body ends in. -/
theorem State.execFrame_of_body {i : Instr} {s u t : State} (hgiven : (s.retire.startCommand (encode i)).SameGiven u)
    (hframe : (s.retire.startCommand (encode i)).BodyFrame i u)
    (ht : ∃ done err info, t = { u with
      done := done, err := err, errInfo := info, work := { u.work with phase := .idle }, mem := u.mem.redraw })
    (hresult : i.producesDigest = false ∨ t.done = false → u.resLo = s.resLo ∧ u.resHi = s.resHi) : s.ExecFrame i t := by
  obtain ⟨done, err, info, rfl⟩ := ht
  exact ⟨⟨hgiven.seedX, hgiven.seedY, hgiven.addr, hgiven.len⟩, hgiven.inbox, hgiven.reply, hgiven.cap, hgiven.cfg,
    .inr (congrArg Memory.redraw hgiven.mem), hframe.stream, hframe.work, hframe.adapter, .inr hframe.sel, hresult⟩

theorem exec_frame {i : Instr} {s t : State} (h : exec i s = .next t) : s.ExecFrame i t := by
  have hgiven := commandBody_sameGiven i (s.retire.startCommand (encode i))
  have hframe := commandBody_frame i (s.retire.startCommand (encode i))
  obtain ⟨-, rfl⟩ | ⟨-, -, rfl⟩ | rfl | ⟨u, hu, rfl⟩ | ⟨-, r, hr, rfl⟩ := exec_ends h
  · exact State.execFrame_of_unchanged ⟨_, _, _, _, _, _, rfl⟩
  · exact State.execFrame_of_unchanged ⟨_, _, _, _, _, _, rfl⟩
  · exact State.execFrame_of_unchanged ⟨_, _, _, _, _, _, rfl⟩
  · rw [hu] at hgiven hframe
    exact State.execFrame_of_body hgiven hframe ⟨_, _, _, rfl⟩ fun h => hframe.result (h.resolve_right (by simp))
  · have hdigests := commandBody_error_sameDigests i _ r hr
    rw [hr] at hgiven hframe
    exact State.execFrame_of_body hgiven hframe ⟨_, _, _, rfl⟩ fun _ => ⟨hdigests.resLo, hdigests.resHi⟩

/-- Settles O43: the frame of every command (`exec_frame`); new draws for racing pages leave what memory holds. -/
theorem commandFrame : Obligations.CommandFrame := by
  unfold Obligations.CommandFrame
  intro i s t h
  have hf := exec_frame h
  have hmem : t.mem.cells = s.mem.cells ∧ t.mem.unmapped = s.mem.unmapped ∧ t.mem.racing = s.mem.racing := by
    obtain h | h := hf.mem <;> simp [h]
  obtain ⟨hcells, hunmapped, hracing⟩ := hmem
  refine ⟨hf.inbox, hf.reply, hf.operands.seedX, hf.operands.seedY, hf.operands.addr, hf.operands.len, hf.cap, hf.cfg,
    fun a => ⟨?_, ?_⟩, hcells, hunmapped, hracing, hf.stream, hf.work, hf.adapter, fun hd => ?_, hf.result⟩
  · rw [Memory.held, hcells, Memory.held]
  · rw [Memory.mapped, hunmapped, Memory.mapped]
  · exact hf.sel.elim id fun h => h.trans (s.selAfter_of_not_dispatched hd)

/-! ### A step that issues no command -/

/-- What a step that issues no command and is no reset leaves of the core. -/
structure State.Waits (s t : State) : Prop where
  stream : t.stream = s.stream
  work : t.work = s.work ∨ t.work = { s.work with phase := .idle }
  cap : t.cap = s.cap
  cfg : t.cfg = s.cfg
  sel : t.sel = s.sel
  errors : t.err = .none → t.err = s.err ∧ t.errInfo = s.errInfo
  memory : s.mem.wf → t.mem.wf

theorem State.waits_of_mem {s : State} {m : Memory} (h : s.mem.wf → m.wf) : s.Waits (s.retire.withMem m) :=
  ⟨rfl, .inl rfl, rfl, rfl, rfl, fun _ => ⟨rfl, rfl⟩, h⟩

theorem State.waits_raise (s : State) (w : BitVec 32) {e : ErrCode} (he : e ≠ .none) (info : U64) :
    s.Waits ((s.retire.startCommand w).raise e info) := by
  refine ⟨rfl, .inr rfl, rfl, rfl, rfl, fun h => ?_, id⟩
  by_cases hs : s.err = .none
  · have herr : ((s.retire.startCommand w).raise e info).err = e := if_pos hs
    exact absurd (herr.symm.trans h) he
  · exact ⟨if_neg hs, if_neg hs⟩

theorem State.waits_badAccess (s : State) (idx : BitVec 5) : s.Waits (s.retire.badAccess idx) := by
  refine ⟨rfl, .inl rfl, rfl, rfl, rfl, fun h => ?_, id⟩
  by_cases hs : s.err = .none
  · have herr : (s.retire.badAccess idx).err = .reg := if_pos hs
    cases herr.symm.trans h
  · exact ⟨if_neg hs, if_neg hs⟩

theorem step_waits {s t : State} (h : step s = .next t) (hcmd : ∀ i, s.due ≠ .command i) (hreset : s.due ≠ .event .reset) :
    s.Waits t := by
  obtain ⟨-, hs⟩ | ⟨i, hd, -⟩ | ⟨v, -, hs⟩ | ⟨idx, v, -, hs⟩ | ⟨idx, -, hs⟩ | ⟨ev, hd, hs⟩ := step_cases s
  case inr.inl => exact absurd hd (hcmd i)
  all_goals
    rw [hs] at h
    injection h with h
    subst h
  · exact ⟨rfl, .inl rfl, rfl, rfl, rfl, fun _ => ⟨rfl, rfl⟩, id⟩
  · obtain ⟨-, h⟩ | ⟨-, -, h⟩ | ⟨-, -, -, h⟩ | ⟨-, -, -, h⟩ := illegalCommand_cases v s <;> rw [h]
    · exact ⟨rfl, .inl rfl, rfl, rfl, rfl, fun _ => ⟨rfl, rfl⟩, id⟩
    · exact ⟨rfl, .inr rfl, rfl, rfl, rfl, nofun, id⟩
    · exact ⟨rfl, .inl rfl, rfl, rfl, rfl, fun _ => ⟨rfl, rfl⟩, id⟩
    · exact s.waits_raise _ (by decide) v
  · obtain ⟨-, h⟩ | ⟨-, ⟨-, h⟩ | ⟨-, h⟩ | ⟨-, h⟩ | ⟨-, h⟩ | ⟨-, -, -, -, h⟩⟩ := writeRegister_cases idx v s <;> rw [h]
    case inr.inr.inr.inr.inr => exact s.waits_badAccess idx
    all_goals exact ⟨rfl, .inl rfl, rfl, rfl, rfl, fun _ => ⟨rfl, rfl⟩, id⟩
  · cases hreg : regOfIndex idx with
    | some r =>
      rw [readRegister_of_reg hreg]
      exact ⟨rfl, .inl rfl, rfl, rfl, rfl, fun _ => ⟨rfl, rfl⟩, id⟩
    | none =>
      rw [readRegister_of_reserved hreg]
      obtain ⟨-, hwork, -, -, -, herr, -⟩ := s.waits_badAccess idx
      exact ⟨rfl, hwork, rfl, rfl, rfl, herr, id⟩
  · cases ev with
    | reset => exact absurd hd hreset
    | port p => exact ⟨rfl, .inl rfl, rfl, rfl, rfl, fun _ => ⟨rfl, rfl⟩, id⟩
    | store a b => exact State.waits_of_mem fun h => Memory.store_wf h a.isLt b
    | mapPage p => exact State.waits_of_mem fun h => Memory.mapPage_wf h p.toNat
    | unmapPage p => exact State.waits_of_mem fun h => Memory.unmapPage_wf h p.toNat
    | race ps => exact State.waits_of_mem fun h => Memory.race_wf h _

/-! ### `SEL` is resolved once (R46, R271) -/

/-- `CAP` stays, and `SEL` is as before or what a dispatched command resolves. -/
structure State.SelStep (s t : State) : Prop where
  cap : t.cap = s.cap
  sel : t.sel = s.sel ∨ (t.sel = some s.resolved ∧ ∃ i : Instr, s.due = .command i ∧ i.dispatched = true)

theorem exec_selStep {i : Instr} {s t : State} (hd : s.due = .command i) (h : exec i s = .next t) : s.SelStep t := by
  have hf := exec_frame h
  refine ⟨hf.cap, hf.sel.elim .inl fun hsel => ?_⟩
  unfold State.selAfter at hsel
  split at hsel
  · next hi => exact .inr ⟨hsel, i, hd, hi.1⟩
  · exact .inl hsel

/-- Every kind of step but reset. -/
theorem step_selStep {s t : State} (h : step s = .next t) (hreset : s.due ≠ .event .reset) : s.SelStep t := by
  by_cases hcmd : ∃ i, s.due = .command i
  · obtain ⟨i, hi⟩ := hcmd
    rw [step_of_due_command hi] at h
    exact exec_selStep hi h
  · have hwaits := step_waits h (fun i hi => hcmd ⟨i, hi⟩) hreset
    exact ⟨hwaits.cap, .inl hwaits.sel⟩

/-- Settles O44: a resolution with `SEL` valid keeps it, and one with `SEL` not valid takes what `CAP` selects. -/
theorem resolvedOnce : Obligations.ResolvedOnce := by
  unfold Obligations.ResolvedOnce
  intro s t h hreset
  obtain ⟨hcap, hsel⟩ := step_selStep h hreset
  refine ⟨hcap, fun x hx => ?_, fun hnone => ?_⟩
  · obtain hsame | ⟨hres, -⟩ := hsel
    · rw [hsame, hx]
    · rw [hres, State.resolved, hx, Option.getD_some]
  · obtain hsame | ⟨hres, hcmd⟩ := hsel
    · exact .inl (hsame.trans hnone)
    · refine .inr ⟨?_, hcmd⟩
      rw [hres, State.resolved, hnone, Option.getD_none]

/-! ### `E_ENGINE` (R302) -/

/-- Without `AESR` the dispatcher selects generation 1 or 2 (R271). -/
theorem present_resolveCap {c : BitVec 32} (h : c.getLsbD 1 = false) : (resolveCap c).present = true := by
  have haesr : capAesr c = false := h
  cases hw : capW64 c <;> simp [resolveCap, haesr, hw, Impl.present]

theorem State.Inv.present_resolved {s : State} (h : s.Inv) (haesr : s.cfg.capReset.getLsbD 1 = false) :
    s.resolved.present = true := by
  have hsel : s.resolved = resolveCap s.cap := by
    obtain hsel | hsel := h.sel <;> simp [State.resolved, hsel]
  rw [hsel, h.cap]
  exact present_resolveCap haesr

/-- Settles O21: the check for the selected body comes right after resolution, and no other check raises `E_ENGINE`. -/
theorem engineError : Obligations.EngineError := by
  unfold Obligations.EngineError
  have hcause {i : Instr} {s t : State} (herr : s.err = .none) (h : exec i s = .next t) (ht : t.err = .engine) :
      i.dispatched = true ∧ s.resolved.present = false := by
    obtain ⟨info, hv⟩ := violates_of_exec_err herr h ht (by decide) (by decide) (by decide)
    cases hv with
    | engine ha hi hp => exact ⟨hi, hp⟩
  refine ⟨fun i s hs hi ha hp => ?_, fun i s t => hcause, fun i s t hinv haesr hne h ht => ?_⟩
  · rw [exec_of_violates hs (.engine ha hi hp), State.selAfter_of_dispatched hi ha]
  · by_cases herr : s.err = .none
    · obtain ⟨-, hp⟩ := hcause herr h ht
      simp [hinv.present_resolved haesr] at hp
    · obtain hsame | rfl | ⟨hfatal, -⟩ := exec_sameErrors h herr
      · exact hne (hsame.err.symm.trans ht)
      · obtain ⟨-, rfl⟩ | ⟨-, -, rfl⟩ | rfl | ⟨u, hu, rfl⟩ | ⟨-, r, hr, -⟩ := exec_ends h
        · exact hne ht
        · cases ht
        · exact hne ht
        · cases hu
          cases ht
        · cases hr
      · cases hfatal.symm.trans ht

/-! ### `TOTAL` and `SSTATE` through `uABSORB` -/

/-- The context still counts `total` bytes in the lifecycle state `st`. -/
def Stream.Counts (total : U64) (st : SState) (c : Stream) : Prop := c.total = total ∧ c.sstate = st

section
variable {ε : Type} (k : Config) (src : ByteSource ε) {total : U64} {st : SState} {x : Absorb}

theorem copyIn_keepsCounts (j dst n : Nat) (h : x.ctx.Counts total st) :
    AbsorbEndsIn (Stream.Counts total st) (copyIn src j dst n x) := by
  have hcounts := copyIn_counts src n j dst x
  cases hr : copyIn src j dst n x <;> rw [hr] at hcounts <;> obtain ⟨⟨ht, hs⟩, -⟩ := hcounts <;>
    exact ⟨ht.trans h.1, hs.trans h.2⟩

theorem absorbDirect_keepsCounts (j n : Nat) (h : x.ctx.Counts total st) :
    AbsorbEndsIn (Stream.Counts total st) (absorbDirect k src j n x) := by
  have hcounts := absorbDirect_counts k src n j x
  cases hr : absorbDirect k src j n x <;> rw [hr] at hcounts <;> obtain ⟨⟨ht, hs⟩, -⟩ := hcounts <;>
    exact ⟨ht.trans h.1, hs.trans h.2⟩

theorem absorbStash_keepsCounts (j n : Nat) (h : x.ctx.Counts total st) :
    AbsorbEndsIn (Stream.Counts total st) (absorbStash src j n x) := by
  have hcopy := copyIn_keepsCounts src j 0 n (x := { x with phase := .stash }) h
  unfold absorbStash
  split
  · cases hr : copyIn src j 0 n { x with phase := .stash } <;> rw [hr] at hcopy <;> exact hcopy
  · exact h

theorem absorbRest_keepsCounts (j n : Nat) (h : x.ctx.Counts total st) :
    AbsorbEndsIn (Stream.Counts total st) (absorbRest k src j n x) :=
  (absorbDirect_keepsCounts k src j ((n - j) / 32) (x := { x with phase := .direct }) h).bind
    fun _ hy => absorbStash_keepsCounts src _ _ hy

theorem absorbFill_keepsCounts (chunk : Nat) (h : x.ctx.Counts total st) :
    AbsorbEndsIn (Stream.Counts total st) (absorbFill src chunk x) := by
  have hcopy := copyIn_keepsCounts src 0 x.ctx.fill.toNat chunk (x := { x with phase := .fillBuf }) h
  unfold absorbFill
  dsimp only
  cases hr : copyIn src 0 x.ctx.fill.toNat chunk { x with phase := .fillBuf } <;> rw [hr] at hcopy <;> exact hcopy

theorem uAbsorb_of_empty (n : Nat) (h : x.ctx.fill.toNat = 0) : uAbsorb k src n x = absorbRest k src 0 n x := by
  rw [uAbsorb, if_neg (not_not_intro h)]

theorem uAbsorb_of_pending (n : Nat) (h : x.ctx.fill.toNat ≠ 0) :
    uAbsorb k src n x = absorbFill src (min (32 - x.ctx.fill.toNat) n) x >>= fun y =>
      if x.ctx.fill.toNat + min (32 - x.ctx.fill.toNat) n < 32 then .ok y
      else absorbRest k src (min (32 - x.ctx.fill.toNat) n) n (absorbDrain k y) := by
  rw [uAbsorb, if_pos h]
  dsimp only
  cases absorbFill src (min (32 - x.ctx.fill.toNat) n) x <;> rfl

/-- `uABSORB` writes neither `TOTAL` nor `SSTATE`. -/
theorem uAbsorb_keepsCounts (n : Nat) (h : x.ctx.Counts total st) :
    AbsorbEndsIn (Stream.Counts total st) (uAbsorb k src n x) := by
  by_cases hfill : x.ctx.fill.toNat = 0
  · rw [uAbsorb_of_empty k src n hfill]
    exact absorbRest_keepsCounts k src 0 n h
  · rw [uAbsorb_of_pending k src n hfill]
    refine (absorbFill_keepsCounts src _ h).bind fun y hy => ?_
    split
    · exact hy
    · exact absorbRest_keepsCounts k src _ n (x := absorbDrain k y) hy

end

theorem State.supdRun_keepsCounts (s : State) :
    AbsorbEndsIn (Stream.Counts s.stream.total s.stream.sstate) s.supdRun :=
  uAbsorb_keepsCounts s.cfg (memBytes s.mem s.addr.toNat) (x := s.absorbing) s.len.toNat ⟨rfl, rfl⟩

theorem State.supdRun_fillBelow {s : State} (h : s.stream.FillBelow) : AbsorbEndsIn Stream.FillBelow s.supdRun :=
  uAbsorb_fillBelow s.cfg (memBytes s.mem s.addr.toNat) (x := s.absorbing) s.len.toNat h

/-! ### The poisoned context (R296) -/

/-- The write of an accepting core whose body fails. -/
theorem exec_of_body_error {i : Instr} {s : State} {r : Raise} (hs : s.Accepts)
    (hr : commandBody i (s.retire.startCommand (encode i)) = .error r) (herr : r.state.err = .none) :
    exec i s = .next { r.state with
      done := false, err := r.code, errInfo := r.info, work := { r.state.work with phase := .idle },
      mem := r.state.mem.redraw } := by
  rw [exec_eq_commandBody, hs.runCommand_eq, hr, settle_error, State.raise_of_noError herr]
  rfl

/-- Settles O25: the run stops in a context with `FILL` below 32 and `TOTAL` as it was, and `SUPD` marks it `S_NONE`. -/
theorem busErrorPoisons : Obligations.BusErrorPoisons := by
  unfold Obligations.BusErrorPoisons
  intro s hs hl hrange hunmapped
  have hattempt := supdBody_attempt (s := s.retire.startCommand (encode .supd)) hl hrange
  obtain ⟨hno, -⟩ | ⟨-, hno, -⟩ | ⟨-, -, ⟨x, -, hbody⟩ | ⟨y, hy, hbody⟩⟩ :=
    supdBody_cases (s.retire.startCommand (encode .supd))
  · exact absurd hl hno
  · exact absurd hrange hno
  · rw [hbody] at hattempt
    exact absurd hattempt hunmapped
  · have hcounts := (s.retire.startCommand (encode .supd)).supdRun_keepsCounts
    have hfill := State.supdRun_fillBelow (s := s.retire.startCommand (encode .supd)) hs.fill
    rw [hy] at hcounts hfill
    refine ⟨.ofNat 64 y.why, { y.at_.ctx with sstate := .none }, ?_, rfl, Nat.le_of_lt_succ hfill, hcounts.1⟩
    exact exec_of_body_error (i := .supd) hs hbody hs.noError

/-! ### The lifecycle of the stream (R52) -/

theorem State.supdDone_sstate {s : State} {x : Absorb} (h : s.supdRun = .ok x) :
    (s.supdDone x).stream.sstate = s.stream.sstate := by
  have hcounts := s.supdRun_keepsCounts
  rw [h] at hcounts
  exact hcounts.2

/-- What the bodies do to `SSTATE` when they complete. -/
theorem commandBody_ok_sstate {i : Instr} {s u : State} (h : commandBody i s = .ok u) :
    u.stream.sstate = s.stream.sstate ∨ (i = .sinit ∧ u.stream.sstate = .live) ∨
    ((i = .sfin ∨ i = .sfinx) ∧ s.stream.sstate = .live ∧ u.stream.sstate = .done) := by
  have hframe := commandBody_frame i s
  rw [h] at hframe
  cases i with
  | sinit =>
    cases h
    exact .inr (.inl ⟨rfl, rfl⟩)
  | supd =>
    obtain ⟨-, hb⟩ | ⟨-, -, hb⟩ | ⟨-, -, ⟨x, hx, hb⟩ | ⟨y, -, hb⟩⟩ := supdBody_cases s <;> cases hb.symm.trans h
    exact .inl (State.supdDone_sstate hx)
  | sfin =>
    by_cases hl : s.stream.sstate = .live
    · cases (sfinBody_of_live hl).symm.trans h
      exact .inr (.inr ⟨.inl rfl, hl, rfl⟩)
    · cases (sfinBody_of_not_live hl).symm.trans h
  | sfinx =>
    by_cases hl : s.stream.sstate = .live
    · cases (sfinxBody_of_live hl).symm.trans h
      exact .inr (.inr ⟨.inr rfl, hl, rfl⟩)
    · cases (sfinxBody_of_not_live hl).symm.trans h
  | _ => exact .inl (congrArg Stream.sstate (hframe.stream rfl))

/-- And when they raise an error. -/
theorem commandBody_error_sstate {i : Instr} {s : State} {r : Raise} (h : commandBody i s = .error r) :
    r.state.stream.sstate = s.stream.sstate ∨
    (i = .supd ∧ s.stream.sstate = .live ∧ r.state.stream.sstate = .none ∧ r.code = .bus ∧ r.state.err = s.err) := by
  have hframe := commandBody_frame i s
  rw [h] at hframe
  cases i with
  | sinit => cases h
  | supd =>
    obtain ⟨-, hb⟩ | ⟨-, -, hb⟩ | ⟨hl, -, ⟨x, -, hb⟩ | ⟨y, -, hb⟩⟩ := supdBody_cases s <;> cases hb.symm.trans h
    · exact .inl rfl
    · exact .inl rfl
    · exact .inr ⟨rfl, hl, rfl, rfl, rfl⟩
  | sfin =>
    by_cases hl : s.stream.sstate = .live
    · cases (sfinBody_of_live hl).symm.trans h
    · cases (sfinBody_of_not_live hl).symm.trans h
      exact .inl rfl
  | sfinx =>
    by_cases hl : s.stream.sstate = .live
    · cases (sfinxBody_of_live hl).symm.trans h
    · cases (sfinxBody_of_not_live hl).symm.trans h
      exact .inl rfl
  | _ => exact .inl (congrArg Stream.sstate (hframe.stream rfl))

/-- Settles O46: a command that does not reach its body leaves the context, and what the bodies do to `SSTATE` is said once
for each way they end. -/
theorem streamLifecycle : Obligations.StreamLifecycle := by
  unfold Obligations.StreamLifecycle
  intro i s t h hne
  obtain ⟨-, rfl⟩ | ⟨-, -, rfl⟩ | rfl | ⟨u, hu, rfl⟩ | ⟨hgo, r, hr, rfl⟩ := exec_ends h
  · exact absurd rfl hne
  · exact absurd rfl hne
  · exact absurd rfl hne
  · obtain hsame | ⟨rfl, hlive⟩ | ⟨hi, hl, hdone⟩ := commandBody_ok_sstate hu
    · exact absurd hsame hne
    · exact .inl ⟨rfl, hlive⟩
    · exact .inr (.inl ⟨hi, hl, hdone, rfl⟩)
  · obtain hsame | ⟨rfl, hl, hnone, hbus, herr⟩ := commandBody_error_sstate hr
    · exact absurd hsame hne
    · have hpass : r.state.err = .none := herr.trans (hgo.resolve_right (by decide))
      refine .inr (.inr ⟨rfl, hl, hnone, ?_⟩)
      rw [State.raise_of_noError hpass]
      exact hbus

end Sys2Proof.Machine
end

section
/-! PROOFS. Runs over a stretch of memory (spec/20_memory.md R83 to R86). `Reads` says of a run at once which bytes it needs mapped,
what it answers, which address it stops at, and that nothing but those bytes and their pages decides any of this. It is closed
under running one part after another. -/

namespace Sys2Proof.Machine

open Sys2Proof

/-! ### What a run can see of a stretch -/

/-- Both memories hold the same `n` bytes from `a` on, and map the same of their pages. -/
def Memory.SameOn (m m' : Memory) (a n : Nat) : Prop :=
  ∀ i < n, m'.byte (a + i) = m.byte (a + i) ∧ m'.mapped (a + i) = m.mapped (a + i)

theorem Memory.SameOn.split {m m' : Memory} {a n k : Nat} (h : m.SameOn m' a (n + k)) :
    m.SameOn m' a n ∧ m.SameOn m' (a + n) k :=
  ⟨fun i hi => h i (by omega), fun i hi => Nat.add_assoc a n i ▸ h (n + i) (by omega)⟩

theorem Memory.SameOn.mappedOn {m m' : Memory} {a n : Nat} (h : m.SameOn m' a n) (hm : m.MappedOn a n) :
    m'.MappedOn a n := fun i hi => (h i hi).2.trans (hm i hi)

theorem Memory.SameOn.symm {m m' : Memory} {a n : Nat} (h : m.SameOn m' a n) : m'.SameOn m a n :=
  fun i hi => ⟨(h i hi).1.symm, (h i hi).2.symm⟩

theorem Memory.SameOn.bytes_eq {m m' : Memory} {a n : Nat} (h : m.SameOn m' a n) : m'.bytes a n = m.bytes a n :=
  List.map_congr_left fun i hi => (h i (List.mem_range.1 hi)).1

/-- Byte `j` from `a` on is the first that is unmapped. -/
structure Memory.FirstUnmapped (m : Memory) (a j : Nat) : Prop where
  unmapped : m.mapped (a + j) = false
  before : m.MappedOn a j

theorem Memory.FirstUnmapped.eq {m : Memory} {a i j : Nat} (hi : m.FirstUnmapped a i) (hj : m.FirstUnmapped a j) : i = j := by
  obtain h | h | h := Nat.lt_trichotomy i j
  · exact absurd (hj.before i h) (by simp [hi.unmapped])
  · exact h
  · exact absurd (hi.before j h) (by simp [hj.unmapped])

theorem Memory.exists_firstUnmapped {m : Memory} {a n : Nat} (h : ¬ m.MappedOn a n) : ∃ j < n, m.FirstUnmapped a j := by
  induction n with
  | zero => exact absurd (m.mappedOn_zero a) h
  | succ n ih =>
    by_cases hn : m.MappedOn a n
    · refine ⟨n, by omega, ?_, hn⟩
      by_contra hmap
      refine h ((m.mappedOn_add a n 1).2 ⟨hn, fun i hi => ?_⟩)
      obtain rfl : i = 0 := by omega
      simpa using hmap
    · obtain ⟨j, hj, hfirst⟩ := ih hn
      exact ⟨j, by omega, hfirst⟩

/-- The address at which a run over the `n` bytes from `a` on stops, when byte `j` is the first that is unmapped
(spec/60_exceptions.md R295): that byte; but where the run is one tail read of fewer than `u` bytes from the underside and its
first page is unmapped, the start of that read. -/
def Memory.stopAddress (m : Memory) (u a n j : Nat) : Nat :=
  if u ≤ a % pageSize ∧ n < u ∧ m.mapped a = false then a + n - u else a + j

theorem Memory.stopAddress_of_le {m : Memory} {u n : Nat} (h : u ≤ n) (a j : Nat) : m.stopAddress u a n j = a + j :=
  if_neg fun hu => by omega

/-- An underside read is no exception behind bytes that are mapped: its first page is that of the byte before it. -/
theorem Memory.stopAddress_of_mapped_before {m : Memory} {a n : Nat} (hm : m.MappedOn a n) (hn : 0 < n) (u k j : Nat) :
    m.stopAddress u (a + n) k j = a + n + j := by
  refine if_neg fun ⟨hoff, hk, hu⟩ => ?_
  have hpage : (a + (n - 1)) / pageSize = (a + n) / pageSize := by
    unfold pageSize at *
    omega
  rw [← Memory.mapped_of_same_page hpage, hm (n - 1) (by omega)] at hu
  cases hu

/-! ### Runs -/

/-- A run over the `n` bytes from `a` on, as a function of the memory. Its underside reads, if any, are of `u` bytes; `addr` is the
address in the reason it stops with. -/
structure Reads {ε α : Type} (addr : ε → Nat) (u a n : Nat) (post : Memory → α → Prop) (r : Memory → Except ε α) : Prop where
  /-- It gets through, then with `post`, exactly if every byte is mapped. -/
  all : ∀ m, ReadsAll m a n (post m) (r m)
  /-- Otherwise it stops where the first unmapped byte has it stop. -/
  stop : ∀ m j x, r m = .error x → m.FirstUnmapped a j → addr x = m.stopAddress u a n j
  /-- Another memory that agrees on the bytes and their pages makes no difference. -/
  same : ∀ m m', m.SameOn m' a n → r m' = r m

section
variable {ε ε' α β : Type} {addr : ε → Nat} {addr' : ε' → Nat} {u a n k : Nat} {post : Memory → α → Prop}
  {post' : Memory → β → Prop} {r : Memory → Except ε α}

theorem Reads.ok (h : Reads addr u a n post r) {m : Memory} (hm : m.MappedOn a n) : ∃ x, r m = .ok x ∧ post m x := by
  have hall := h.all m
  cases hr : r m with
  | ok x =>
    rw [hr] at hall
    exact ⟨x, rfl, hall.2⟩
  | error x =>
    rw [hr] at hall
    exact absurd hm hall

theorem Reads.not_mapped (h : Reads addr u a n post r) {m : Memory} {x : ε} (hr : r m = .error x) : ¬ m.MappedOn a n := by
  have hall := h.all m
  rwa [hr] at hall

theorem reads_pure {x : α} (h : ∀ m, post m x) : Reads addr u a 0 post fun _ => .ok x where
  all m := readsAll_pure (h m)
  stop := by rintro _ _ _ ⟨⟩
  same _ _ _ := rfl

theorem Reads.imp {post' : Memory → α → Prop} (h : Reads addr u a n post r) (hp : ∀ m x, post m x → post' m x) :
    Reads addr u a n post' r := ⟨fun m => (h.all m).imp (hp m), h.stop, h.same⟩

/-- What is done with the answer of a run, or with the reason it stops, reads nothing. -/
theorem Reads.conv (h : Reads addr u a n post r) {r' : Memory → Except ε' β} (f : α → β) (g : ε → ε')
    (hr : ∀ m, r' m = ((r m).mapError g).map f) (hg : ∀ x, addr' (g x) = addr x)
    (hf : ∀ m x, post m x → post' m (f x)) : Reads addr' u a n post' r' where
  all m := by
    refine (h.all m).conv (fun x hx hpost => ⟨f x, ?_, hf m x hpost⟩) fun x hx => ⟨g x, ?_⟩ <;> rw [hr, hx] <;> rfl
  stop m j y hy hj := by
    cases hx : r m with
    | ok x =>
      rw [hr, hx] at hy
      cases hy
    | error x =>
      rw [hr, hx] at hy
      cases hy
      exact (hg x).trans (h.stop m j x hx hj)
  same m m' hsame := by rw [hr, hr, h.same m m' hsame]

/-- One run after another. The first reads nothing or at least a word, so that it holds no short underside read. -/
theorem Reads.bind (h : Reads addr u a n post r) {f : α → Memory → Except ε β} (hu : n = 0 ∨ u ≤ n)
    (hf : ∀ x, (∃ m, post m x) → Reads addr u (a + n) k (fun m y => post m x → post' m y) (f x)) :
    Reads addr u a (n + k) post' fun m => r m >>= fun x => f x m where
  all m := (h.all m).bind fun x hx => ((hf x ⟨m, hx⟩).all m).imp fun _ hy => hy hx
  stop m j y hy hj := by
    have hall := h.all m
    cases hx : r m with
    | error x =>
      rw [hx] at hy hall
      cases hy
      have hn : n ≠ 0 := fun hn => hall (hn ▸ m.mappedOn_zero a)
      have hle := hu.resolve_left hn
      rw [h.stop m j y hx hj, Memory.stopAddress_of_le hle, Memory.stopAddress_of_le (by omega)]
    | ok x =>
      rw [hx] at hy hall
      obtain ⟨hmap, hpost⟩ := hall
      have hjn : n ≤ j := by
        by_contra hlt
        exact absurd (hmap j (by omega)) (by simp [hj.unmapped])
      obtain ⟨i, rfl⟩ := Nat.exists_eq_add_of_le hjn
      have hi : m.FirstUnmapped (a + n) i :=
        ⟨by rw [Nat.add_assoc]; exact hj.unmapped, ((m.mappedOn_add a n i).1 hj.before).2⟩
      rw [(hf x ⟨m, hpost⟩).stop m i y hy hi]
      obtain rfl | hle := hu
      · simp
      · obtain rfl | hn := Nat.eq_zero_or_pos n
        · simp
        · rw [Memory.stopAddress_of_mapped_before hmap hn, Memory.stopAddress_of_le (by omega), Nat.add_assoc]
  same m m' hsame := by
    obtain ⟨hn, hk⟩ := hsame.split
    have hall := h.all m
    rw [h.same m m' hn]
    cases hx : r m with
    | error x => rfl
    | ok x =>
      rw [hx] at hall
      exact (hf x ⟨m, hall.2⟩).same m m' hk

/-- The form of `Reads.bind` for runs whose answers are functions of the memory. -/
theorem Reads.bind_eq {F : Memory → α} {G : α → Memory → β} (h : Reads addr u a n (fun m x => x = F m) r)
    {f : α → Memory → Except ε β} (hu : n = 0 ∨ u ≤ n)
    (hf : ∀ m, Reads addr u (a + n) k (fun m' y => y = G (F m) m') (f (F m))) :
    Reads addr u a (n + k) (fun m y => y = G (F m) m) fun m => r m >>= fun x => f x m :=
  h.bind hu (by
    rintro _ ⟨m, rfl⟩
    exact (hf m).imp fun m' y hy heq => by rw [hy, heq])

/-- What a run does with its answer at its end. -/
theorem Reads.bind_ok (h : Reads addr u a n post r) (f : α → β) (hf : ∀ m x, post m x → post' m (f x)) :
    Reads addr u a n post' fun m => r m >>= fun x => .ok (f x) :=
  h.conv f id (fun m => by cases r m <;> rfl) (fun _ => rfl) hf

/-- A run that stops with nothing but an address, and answers a function of its bytes, depends on no others. -/
theorem Reads.of_bytes {F : List Byte → α} {r : Memory → Except Nat α}
    (hall : ∀ m, ReadsAll m a n (fun x => x = F (m.bytes a n)) (r m))
    (hstop : ∀ m j x, r m = .error x → m.FirstUnmapped a j → x = m.stopAddress u a n j) :
    Reads id u a n (fun m x => x = F (m.bytes a n)) r where
  all := hall
  stop := hstop
  same m m' hsame := by
    have h := hall m
    have h' := hall m'
    cases hr : r m with
    | ok x =>
      rw [hr] at h
      cases hr' : r m' with
      | ok x' =>
        rw [hr'] at h'
        rw [h.2, h'.2, hsame.bytes_eq]
      | error x' =>
        rw [hr'] at h'
        exact absurd (hsame.mappedOn h.1) h'
    | error x =>
      rw [hr] at h
      cases hr' : r m' with
      | ok x' =>
        rw [hr'] at h'
        exact absurd (hsame.symm.mappedOn h'.1) h
      | error x' =>
        obtain ⟨j, hj, hfirst⟩ := Memory.exists_firstUnmapped h
        have hfirst' : m'.FirstUnmapped a j :=
          ⟨(hsame j hj).2.trans hfirst.unmapped, fun i hi => (hsame i (by omega)).2.trans (hfirst.before i hi)⟩
        have ha : m'.mapped a = m.mapped a := (hsame 0 (by omega)).2
        rw [hstop m j x hr hfirst, hstop m' j x' hr' hfirst', Memory.stopAddress, ha, Memory.stopAddress]

/-- A run that reads nothing may be said to stand anywhere. -/
theorem Reads.of_zero {b : Nat} (h : Reads addr u a 0 post r) : Reads addr u b 0 post r where
  all m := by
    have hall := h.all m
    cases hr : r m with
    | ok x =>
      rw [hr] at hall
      exact ⟨m.mappedOn_zero b, hall.2⟩
    | error x =>
      rw [hr] at hall
      exact absurd (m.mappedOn_zero a) hall
  stop m j x hr _ := absurd (m.mappedOn_zero a) (h.not_mapped hr)
  same m m' _ := h.same m m' fun _ hi => absurd hi (Nat.not_lt_zero _)

/-- `POS` after `c` bytes of an input that ends within the address space: it wraps only where nothing is left to read. -/
theorem Reads.of_advance {p : U64} {c : Nat} (h : Reads addr u (p + BitVec.ofNat 64 c).toNat n post r)
    (hend : p.toNat + c + n ≤ 2 ^ 64) : Reads addr u (p.toNat + c) n post r := by
  by_cases hw : p.toNat + c < 2 ^ 64
  · rwa [BitVec.toNat_add, BitVec.toNat_ofNat, Nat.add_mod_mod, Nat.mod_eq_of_lt hw] at h
  · obtain rfl : n = 0 := by omega
    exact h.of_zero

end

theorem toNat_advance_le (p : U64) (c : Nat) : (p + BitVec.ofNat 64 c).toNat ≤ p.toNat + c := by
  rw [BitVec.toNat_add, BitVec.toNat_ofNat, Nat.add_mod_mod]
  exact Nat.mod_le _ _

theorem Memory.bytes_advance (m : Memory) {p : U64} {c n : Nat} (hend : p.toNat + c + n ≤ 2 ^ 64) :
    m.bytes (p + BitVec.ofNat 64 c).toNat n = m.bytes (p.toNat + c) n := by
  by_cases hw : p.toNat + c < 2 ^ 64
  · rw [BitVec.toNat_add, BitVec.toNat_ofNat, Nat.add_mod_mod, Nat.mod_eq_of_lt hw]
  · obtain rfl : n = 0 := by omega
    rfl

/-! ### Single reads -/

theorem uFetch_error {m : Memory} {W pos x : Nat} {e : Endian} (h : uFetch m W e pos = .error x) :
    ∃ i < W, x = pos + i ∧ m.FirstUnmapped pos i := by
  obtain ⟨hok, -⟩ | ⟨i, hi, herr, hu, hbefore⟩ := uFetch_cases m W e pos
  · cases hok.symm.trans h
  · exact ⟨i, hi, (Except.error.inj (herr.symm.trans h)).symm, hu, hbefore⟩

theorem reads_uFetch {u W : Nat} (hu : u ≤ W) (e : Endian) (pos : Nat) :
    Reads id u pos W (fun m x => x = wordValue e (m.bytes pos W)) fun m => uFetch m W e pos := by
  refine .of_bytes (fun m => ?_) fun m j x hx hj => ?_
  · exact (readsAll_uFetch m W e pos).conv (fun x hx _ => ⟨x, hx, uFetch_eq_ok hx⟩) fun x hx => ⟨x, hx⟩
  · obtain ⟨i, -, rfl, hi⟩ := uFetch_error hx
    rw [Memory.stopAddress_of_le hu, hi.eq hj]

/-- The size of the underside reads of a body (R84): none under the aligned discipline. -/
def undersideSize (W : Nat) : Discipline → Nat
  | .aligned => 0
  | .unaligned => W

theorem undersideSize_le (W : Nat) (a : Discipline) : undersideSize W a ≤ W := by
  cases a with
  | aligned => exact Nat.zero_le W
  | unaligned => exact le_rfl

/-- Byte 0 is the first unmapped one exactly where the page is unmapped. -/
theorem Memory.FirstUnmapped.eq_zero {m : Memory} {a j : Nat} (hj : m.FirstUnmapped a j) (h : m.mapped a = false) : j = 0 := by
  by_contra hne
  exact absurd (hj.before 0 (by omega)) (by simp [h])

/-- A forward read stays in the page of `pos`. -/
theorem stopAddress_of_forward {m : Memory} {W pos r j x : Nat} {e : Endian} {a : Discipline} (hW : WordSize W)
    (ha : a = .aligned → pos % W = 0) (hf : readsForward W a pos = true) (hx : uFetch m W e pos = .error x)
    (hj : m.FirstUnmapped pos j) : x = m.stopAddress (undersideSize W a) pos r j := by
  obtain ⟨i, hi, rfl, hfirst⟩ := uFetch_error hx
  have hno : ¬ (undersideSize W a ≤ pos % pageSize ∧ r < undersideSize W a ∧ m.mapped pos = false) := by
    rintro ⟨hoff, hr, -⟩
    cases a with
    | aligned => exact absurd hr (Nat.not_lt_zero r)
    | unaligned =>
      have hzero : pos &&& (pageSize - W) = 0 := by simpa [readsForward] using hf
      exact absurd ((and_pageSize_sub_eq_zero_iff hW pos).1 hzero) (by simpa [undersideSize] using hoff)
  rw [Memory.stopAddress, if_neg hno, hfirst.eq hj]

/-- An underside read starts in the page of `pos`: it stops at its start, or at the first unmapped valid byte. -/
theorem stopAddress_of_underside {m : Memory} {W pos r j x : Nat} {e : Endian} (hrW : r ≤ W)
    (hoff : W ≤ pos % pageSize) (hx : uFetch m W e (pos - (W - r)) = .error x) (hj : m.FirstUnmapped pos j) :
    x = m.stopAddress W pos r j := by
  obtain ⟨i, hi, rfl, hfirst⟩ := uFetch_error hx
  have hpos := Nat.mod_le pos pageSize
  have hpage (d : Nat) (hd : d ≤ W - r) : m.mapped (pos - (W - r) + d) = m.mapped pos := by
    refine Memory.mapped_of_same_page ?_
    unfold pageSize at *
    omega
  have hstart : m.mapped (pos - (W - r)) = m.mapped pos := hpage 0 (Nat.zero_le _)
  by_cases hmap : m.mapped pos = false
  · obtain rfl := hj.eq_zero hmap
    obtain rfl := hfirst.eq_zero (hstart.trans hmap)
    rw [Memory.stopAddress]
    split_ifs with h
    · omega
    · have : ¬ r < W := fun hlt => h ⟨hoff, hlt, hmap⟩
      omega
  · have hfirst' : m.FirstUnmapped (pos - (W - r)) (W - r + j) := by
      refine ⟨?_, (m.mappedOn_add _ _ _).2 ⟨fun d hd => ?_, ?_⟩⟩
      · rw [← Nat.add_assoc, Nat.sub_add_cancel (by omega)]
        exact hj.unmapped
      · rw [hpage d (by omega)]
        simpa using hmap
      · rw [Nat.sub_add_cancel (by omega)]
        exact hj.before
    obtain rfl := hfirst.eq hfirst'
    rw [Memory.stopAddress, if_neg fun h => hmap h.2.2]
    omega

theorem reads_uTail {W r pos : Nat} {e : Endian} {a : Discipline} (hW : WordSize W) (hr : 1 ≤ r) (hrW : r ≤ W)
    (ha : a = .aligned → pos % W = 0) :
    Reads id (undersideSize W a) pos r (fun m x => x = wordValue e (m.bytes pos r)) fun m => uTail m W e a pos r := by
  refine .of_bytes (fun m => ?_) fun m j x hx hj => ?_
  · exact (readsAll_uTail (m := m) (e := e) hW hr hrW ha).conv (fun x hx _ => ⟨x, hx, uTail_eq_ok hW hrW hx⟩)
      fun x hx => ⟨x, hx⟩
  · by_cases hf : readsForward W a pos = true
    · simp only [uTail, if_pos hf] at hx
      cases hy : uFetch m W e pos with
      | ok y => simp [hy] at hx
      | error y =>
        rw [hy] at hx
        exact (Except.error.inj hx).symm.trans (stopAddress_of_forward hW ha hf hy hj)
    · obtain ⟨rfl, hoff⟩ := le_mod_of_not_readsForward hW hf
      simp only [uTail, if_neg hf] at hx
      cases hy : uFetch m W e (pos - (W - r)) with
      | ok y => simp [hy] at hx
      | error y =>
        rw [hy] at hx
        exact (Except.error.inj hx).symm.trans (stopAddress_of_underside hrW hoff hy hj)

theorem reads_fetch {u W : Nat} (hu : u ≤ W) (w : Work) (e : Endian) (off : Nat) :
    Reads BusStop.addr u (w.pos.toNat + off) W (fun m x => x = wordValue e (m.bytes (w.pos.toNat + off) W))
      fun m => w.fetch m W e off :=
  (reads_uFetch hu e (w.pos.toNat + off)).conv id (fun x => ⟨x, w⟩)
    (fun m => by rw [Work.fetch]; cases uFetch m W e (w.pos.toNat + off) <;> rfl) (fun _ => rfl) fun _ _ h => h

theorem reads_tail {W r : Nat} {w : Work} {e : Endian} {a : Discipline} (hW : WordSize W) (hr : 1 ≤ r) (hrW : r ≤ W)
    (ha : PosAligned W a w.pos) :
    Reads BusStop.addr (undersideSize W a) w.pos.toNat r (fun m x => x = wordValue e (m.bytes w.pos.toNat r))
      fun m => w.tail m W e a r :=
  (reads_uTail hW hr hrW ha).conv id (fun x => ⟨x, w⟩)
    (fun m => by rw [Work.tail]; cases uTail m W e a w.pos.toNat r <;> rfl) (fun _ => rfl) fun _ _ h => h

end Sys2Proof.Machine
end

section
/-! PROOFS. The one-shot bodies as runs over their input (spec/42_gen1_body.md, 43_gen2_body.md, 44_gen3_body.md): each leaves the
accumulators that its byte-list form gives. -/

namespace Sys2Proof.Machine

open Sys2Proof

/-! ### Pieces of a stretch -/

theorem pieces_take (n k : Nat) (bs : List Byte) : pieces n k (bs.take (n * k)) = pieces n k bs := by
  induction k generalizing bs with
  | zero => rfl
  | succ k ih =>
    rw [pieces, pieces, List.take_take, List.drop_take, Nat.mul_succ, Nat.add_sub_cancel, ih,
      Nat.min_eq_left (Nat.le_add_left _ _)]

theorem pieces_bytes_succ (m : Memory) (a n k : Nat) :
    pieces n (k + 1) (m.bytes a (n + n * k)) = m.bytes a n :: pieces n k (m.bytes (a + n) (n * k)) := by
  rw [pieces, Memory.take_bytes m a (Nat.le_add_right _ _), Memory.drop_bytes m a (Nat.le_add_right _ _),
    Nat.add_sub_cancel_left]

/-! ### The bulk loop -/

/-- A block step as a run: it consumes the block at `POS` and writes the accumulators only. -/
abbrev BlockReads (u size : Nat) (step : Quad → List Byte → Quad) (blk : Memory → Work → Except BusStop Work) : Prop :=
  ∀ w : Work, Reads BusStop.addr u w.pos.toNat size
    (fun m w' => w' = { w with acc := step w.acc (m.bytes w.pos.toNat size) }) fun m => blk m w

/-- The four word reads of a block step, with the words they answer. -/
theorem reads_fourWords {ε α β : Type} {addr : ε → Nat} {u a W : Nat} {v : List Byte → α} {r0 r1 r2 r3 : Memory → Except ε α}
    (hu : u ≤ W) (f : α → α → α → α → β)
    (h0 : Reads addr u a W (fun m x => x = v (m.bytes a W)) r0)
    (h1 : Reads addr u (a + W) W (fun m x => x = v (m.bytes (a + W) W)) r1)
    (h2 : Reads addr u (a + 2 * W) W (fun m x => x = v (m.bytes (a + 2 * W) W)) r2)
    (h3 : Reads addr u (a + 3 * W) W (fun m x => x = v (m.bytes (a + 3 * W) W)) r3) :
    Reads addr u a (4 * W)
      (fun m y => y = f (v (m.bytes a W)) (v (m.bytes (a + W) W)) (v (m.bytes (a + 2 * W) W)) (v (m.bytes (a + 3 * W) W)))
      fun m => (do let x0 ← r0 m; let x1 ← r1 m; let x2 ← r2 m; let x3 ← r3 m; .ok (f x0 x1 x2 x3) : Except ε β) := by
  rw [show 4 * W = W + (W + (W + (W + 0))) by omega]
  refine h0.bind_eq (G := fun x0 m => f x0 (v (m.bytes (a + W) W)) (v (m.bytes (a + 2 * W) W)) (v (m.bytes (a + 3 * W) W)))
    (.inr hu) fun m0 => ?_
  refine h1.bind_eq (G := fun x1 m => f _ x1 (v (m.bytes (a + 2 * W) W)) (v (m.bytes (a + 3 * W) W))) (.inr hu) fun m1 => ?_
  rw [show a + W + W = a + 2 * W by omega]
  refine h2.bind_eq (G := fun x2 m => f _ _ x2 (v (m.bytes (a + 3 * W) W))) (.inr hu) fun m2 => ?_
  rw [show a + 2 * W + W = a + 3 * W by omega]
  exact h3.bind_eq (G := fun x3 _ => f _ _ _ x3) (.inr hu) fun m3 => reads_pure fun _ => rfl

/-- Word `i` of a block in memory. -/
theorem blockWord_bytes (m : Memory) (a W size i : Nat) (e : Endian) (h : W * i + W ≤ size) :
    blockWord e W (m.bytes a size) i = wordValue e (m.bytes (a + W * i) W) := by
  rw [blockWord, Memory.drop_bytes m a (by omega), Memory.take_bytes m _ (by omega)]

theorem blockReads_uG1Blk {u : Nat} (hu : u ≤ 4) (k : Config) (e : Endian) :
    BlockReads u 16 (g1Block k e) fun m w => uG1Blk k m e w := by
  intro w
  refine (reads_fourWords hu (fun w0 w1 w2 w3 =>
      { w with acc := g1Mix k (.ofNat 32 w0) (.ofNat 32 w1) (.ofNat 32 w2) (.ofNat 32 w3) w.acc })
    (reads_fetch hu w e 0) (reads_fetch hu w e 4) (reads_fetch hu w e 8) (reads_fetch hu w e 12)).imp
    fun m w' hw' => ?_
  have hword (i : Nat) (hi : i ≤ 3) := blockWord_bytes m w.pos.toNat 4 16 i e (by omega)
  simp only [g1Block, hword 0 (by decide), hword 1 (by decide), hword 2 (by decide), hword 3 (by decide)]
  exact hw'

theorem blockReads_uG2Blk {u : Nat} (hu : u ≤ 8) (k : Config) (e : Endian) :
    BlockReads u 32 (g2Block k e) fun m w => uG2Blk k m e w := by
  intro w
  refine (reads_fourWords hu (fun w0 w1 w2 w3 =>
      { w with acc := g2Mix k (.ofNat 64 w0) (.ofNat 64 w1) (.ofNat 64 w2) (.ofNat 64 w3) w.acc })
    (reads_fetch hu w e 0) (reads_fetch hu w e 8) (reads_fetch hu w e 16) (reads_fetch hu w e 24)).imp
    fun m w' hw' => ?_
  have hword (i : Nat) (hi : i ≤ 3) := blockWord_bytes m w.pos.toNat 8 32 i e (by omega)
  simp only [g2Block, hword 0 (by decide), hword 1 (by decide), hword 2 (by decide), hword 3 (by decide)]
  exact hw'

/-- A full word of generation 3, as the sources answer it (R210). -/
def sourceWord (bs : List Byte) : U64 := .ofNat 64 (wordValue .little bs)

theorem reads_memSource_word {u : Nat} (hu : u ≤ 8) (a : Discipline) (w : Work) (i : Nat) :
    Reads BusStop.addr u (w.pos.toNat + 8 * i) 8 (fun m x => x = sourceWord (m.bytes (w.pos.toNat + 8 * i) 8))
      fun m => (memSource m a w).word i :=
  (reads_fetch hu w .little (8 * i)).conv (BitVec.ofNat 64) id
    (fun m => by
      show (w.fetch m 8 .little (8 * i)).map (BitVec.ofNat 64) = _
      cases w.fetch m 8 .little (8 * i) <;> rfl)
    (fun _ => rfl) fun _ _ h => by rw [h]; rfl

theorem blockReads_g3MemBlk {u : Nat} (hu : u ≤ 8) (k : Config) (a : Discipline) :
    BlockReads u 32 (g3Block k) fun m w => g3MemBlk k m a w := by
  intro w
  refine (reads_fourWords hu (fun w0 w1 w2 w3 => { w with acc := uG3Blk k w.acc w0 w1 w2 w3 })
    (reads_memSource_word hu a w 0) (reads_memSource_word hu a w 1) (reads_memSource_word hu a w 2)
    (reads_memSource_word hu a w 3)).imp fun m w' hw' => ?_
  have hword (i : Nat) (hi : i ≤ 3) := blockWord_bytes m w.pos.toNat 8 32 i .little (by omega)
  simp only [g3Block, hword 0 (by decide), hword 1 (by decide), hword 2 (by decide), hword 3 (by decide)]
  exact hw'

theorem reads_repeatBlocks {u size : Nat} {step : Quad → List Byte → Quad} {blk : Memory → Work → Except BusStop Work}
    (hblk : BlockReads u size step blk) (hu : u ≤ size) (n : Nat) : ∀ w : Work, w.pos.toNat + size * n ≤ 2 ^ 64 →
      Reads BusStop.addr u w.pos.toNat (size * n)
        (fun m w' => w' = { w with
          acc := (pieces size n (m.bytes w.pos.toNat (size * n))).foldl step w.acc
          pos := w.pos + BitVec.ofNat 64 (size * n) })
        fun m => repeatBlocks (blk m) size n w := by
  induction n with
  | zero => exact fun w _ => reads_pure fun m => by simp [pieces]
  | succ n ih =>
    intro w hend
    rw [Nat.mul_succ, Nat.add_comm (size * n)] at hend ⊢
    have hrun (m : Memory) : repeatBlocks (blk m) size (n + 1) w =
        blk m w >>= fun w' => repeatBlocks (blk m) size n (w'.advance size) := by
      rw [repeatBlocks]
      cases blk m w <;> rfl
    simp only [hrun, pieces_bytes_succ, List.foldl_cons]
    refine (hblk w).bind_eq (f := fun w' m => repeatBlocks (blk m) size n (w'.advance size)) (G := fun w' m => { w' with
        acc := (pieces size n (m.bytes (w.pos.toNat + size) (size * n))).foldl step w'.acc
        pos := w.pos + BitVec.ofNat 64 (size + size * n) }) (.inr hu) fun m => ?_
    have hle := toNat_advance_le w.pos size
    have h := ih ({ w with acc := step w.acc (m.bytes w.pos.toNat size) }.advance size)
      ((Nat.add_le_add_right hle _).trans (by omega))
    refine (Reads.of_advance (p := w.pos) (c := size) h (by omega)).imp fun m' w' hw' => ?_
    rw [hw']
    simp only [Work.advance, Memory.bytes_advance m' (show w.pos.toNat + size + size * n ≤ 2 ^ 64 by omega),
      BitVec.ofNat_add, BitVec.add_assoc]

/-- The accumulators, `POS` and `REM` inside a body. -/
structure Work.At (w : Work) (acc : Quad) (pos : U64) (rem : Nat) : Prop where
  acc : w.acc = acc
  pos : w.pos = pos
  rem : w.rem.toNat = rem

/-- The accumulators after the bulk part of a body, from those before it: `bulk` is what is done to the whole blocks of an input
longer than one. -/
def bulkAcc (size : Nat) (bulk : List (List Byte) → Quad → Quad) (bs : List Byte) (q : Quad) : Quad :=
  if size < bs.length then bulk (pieces size (bs.length / size) bs) q else q

/-- The shape of `g1Bulk`, `g2Bulk` and `g3Bulk`. -/
theorem reads_bulk {u size len : Nat} {step : Quad → List Byte → Quad} {blk : Memory → Work → Except BusStop Work}
    {w w1 w2 : Work} {after : Work → Work} {r : Memory → Except BusStop Work} {pre fold : Quad → Quad}
    (hblk : BlockReads u size step blk) (hu : u ≤ size) (hsize : size = 16 ∨ size = 32)
    (hend : w.pos.toNat + len ≤ 2 ^ 64) (hw1 : w1.pos = w.pos) (hw2 : w2.pos = w.pos) (hrem2 : w2.rem = .ofNat 6 len)
    (hacc1 : w1.acc = pre w.acc) (hacc2 : w2.acc = w.acc) (hpos : ∀ v, (after v).pos = v.pos)
    (hrem : ∀ v, (after v).rem = .ofNat 6 (len % size)) (hacc : ∀ v, (after v).acc = fold v.acc)
    (hr : ∀ m, r m = if size < len then
      match repeatBlocks (blk m) size (len / size) w1 with
      | .ok w => .ok (after w)
      | .error x => .error x
      else .ok w2) :
    Reads BusStop.addr u w.pos.toNat (bulkBytes size len)
      (fun m w' => w'.At (bulkAcc size (fun bs q => fold (bs.foldl step (pre q))) (m.bytes w.pos.toNat len) w.acc)
        (w.pos + BitVec.ofNat 64 (bulkBytes size len)) (len - bulkBytes size len)) r := by
  have hmod : len % size < 64 := (Nat.mod_lt len (by omega)).trans_le (by omega)
  by_cases hlen : size < len
  · have hbytes : bulkBytes size len = size * (len / size) := if_pos hlen
    have hdiv := Nat.div_add_mod len size
    have hblocks := reads_repeatBlocks hblk hu (len / size) w1 (by rw [hw1]; omega)
    rw [hbytes, ← hw1]
    refine hblocks.conv after id (fun m => ?_) (fun _ => rfl) fun m v hv => ⟨?_, ?_, ?_⟩
    · rw [hr, if_pos hlen]
      cases repeatBlocks (blk m) size (len / size) w1 <;> rfl
    · have hv' : v.acc = (pieces size (len / size) (m.bytes w1.pos.toNat (size * (len / size)))).foldl step w1.acc := by rw [hv]
      rw [hacc, hv', hacc1, bulkAcc, Memory.bytes_length, if_pos hlen,
        ← pieces_take size (len / size) (m.bytes w1.pos.toNat len), Memory.take_bytes m _ (by omega)]
    · rw [hpos, hv]
    · rw [hrem, BitVec.toNat_ofNat]
      omega
  · have hbytes : bulkBytes size len = 0 := if_neg hlen
    have hrun : r = fun _ => .ok w2 := funext fun m => by rw [hr, if_neg hlen]
    rw [hbytes, hrun]
    refine reads_pure fun m => ⟨?_, by simp [hw2], ?_⟩
    · rw [hacc2, bulkAcc, Memory.bytes_length, if_neg hlen]
    · rw [hrem2, BitVec.toNat_ofNat]
      omega

/-! ### The tail cascades as functions of bytes -/

theorem cascadeSpec_nil (W : Nat) (e : Endian) (bs : List Byte) (q : Quad) : cascadeSpec W e [] bs q = q := by
  simp [cascadeSpec]

/-- The bucket of the first update is entered when more words than the later ones can take are left. -/
theorem cascadeSpec_cons {W : Nat} (hW : 0 < W) (e : Endian) (u : Nat → Quad → Quad) (us : List (Nat → Quad → Quad))
    {bs : List Byte} (h : bs.length ≤ us.length * W + W) (q : Quad) :
    cascadeSpec W e (u :: us) bs q =
      if us.length * W < bs.length then cascadeSpec W e us (bs.drop W) (u (wordValue e (bs.take W)) q)
      else cascadeSpec W e us bs q := by
  have hceil (n c : Nat) (h1 : c * W < n + W) (h2 : n ≤ c * W) : (n + W - 1) / W = c :=
    Nat.div_eq_of_lt_le (by omega) (by rw [Nat.add_one_mul]; omega)
  split_ifs with hlt
  · have hk : (bs.length + W - 1) / W = us.length + 1 :=
      hceil _ _ (by rw [Nat.add_one_mul]; omega) (by rw [Nat.add_one_mul]; omega)
    have hk' : ((bs.drop W).length + W - 1) / W = us.length := by
      rw [List.length_drop]
      refine hceil _ _ ?_ (by omega)
      omega
    simp only [cascadeSpec, hk, hk', List.length_cons, Nat.sub_self, List.drop_zero, pieces, List.zip_cons_cons,
      List.foldl_cons]
  · have hk : (bs.length + W - 1) / W ≤ us.length :=
      Nat.le_of_lt_succ (Nat.div_lt_of_lt_mul (by rw [Nat.mul_comm, Nat.add_one_mul]; omega))
    simp only [cascadeSpec, List.length_cons]
    rw [Nat.succ_sub hk, List.drop_succ_cons]

/-- The bytes left when a full-word bucket of threshold `thr` is come to, where `n'` are left behind it. -/
structure BucketLeft (W thr rem n' : Nat) : Prop where
  le : n' ≤ thr
  entered : thr < rem → thr < W + n'

theorem cascadeSpec_bucket {W thr rem n' : Nat} (hW : 0 < W) (e : Endian) (u : Nat → Quad → Quad)
    {us : List (Nat → Quad → Quad)} (hthr : us.length * W = thr) (hn : BucketLeft W thr rem n') {bs : List Byte}
    (hbs : bs.length = bucketBytes W thr rem + n') (q : Quad) :
    cascadeSpec W e (u :: us) bs q =
      if thr < rem then cascadeSpec W e us (bs.drop W) (u (wordValue e (bs.take W)) q) else cascadeSpec W e us bs q := by
  have hle := hn.le
  have hin := hn.entered
  by_cases h : thr < rem
  · have hb : bucketBytes W thr rem = W := if_pos h
    have := hin h
    rw [cascadeSpec_cons hW e u us (by omega), if_pos (by omega), if_pos h]
  · have hb : bucketBytes W thr rem = 0 := if_neg h
    rw [cascadeSpec_cons hW e u us (by omega), if_neg (by omega), if_neg h]

theorem cascadeSpec_last {W rem : Nat} (hW : WordSize W) (e : Endian) (u : Nat → Quad → Quad) {bs : List Byte}
    (hbs : bs.length = lastBytes W rem) (q : Quad) :
    cascadeSpec W e [u] bs q = if 0 < rem then u (wordValue e bs) q else q := by
  have hle := uTailLen_le hW rem
  have hpos := uTailLen_pos W rem
  have hW0 : 0 < W := by omega
  by_cases h : 0 < rem
  · have hlen : bs.length = uTailLen W rem := hbs.trans (if_pos h)
    rw [cascadeSpec_cons hW0 e u [] (by simp; omega), if_pos (by simp; omega), if_pos h, cascadeSpec_nil,
      List.take_of_length_le (hlen.trans_le hle)]
  · have hlen : bs.length = 0 := hbs.trans (if_neg h)
    rw [cascadeSpec_cons hW0 e u [] (by simp; omega), if_neg (by rw [hlen]; exact Nat.not_lt_zero _), if_neg h,
      cascadeSpec_nil]

/-- What is left behind each of the three full-word buckets. -/
theorem bucketLeft {W rem : Nat} (hW : WordSize W) (hrem : rem ≤ 4 * W) :
    BucketLeft W W rem (lastBytes W rem) ∧
    BucketLeft W (2 * W) rem (bucketBytes W W rem + lastBytes W rem) ∧
    BucketLeft W (3 * W) rem (bucketBytes W (2 * W) rem + (bucketBytes W W rem + lastBytes W rem)) := by
  unfold bucketBytes lastBytes uTailLen
  refine ⟨⟨?_, ?_⟩, ⟨?_, ?_⟩, ⟨?_, ?_⟩⟩ <;> obtain rfl | rfl := hW <;> split_ifs <;> omega

/-! ### The cascade in the working bank -/

/-- The bytes a cascade over `n` bytes passes over with `POS`: those before its last word. -/
def walked (W n : Nat) : Nat := W * ((n - 1) / W)

theorem walked_bucket {W thr rem n' : Nat} (hW : WordSize W) (hthr : W ≤ thr) (hn : BucketLeft W thr rem n')
    (h : thr < rem) : walked W (W + n') = W + walked W n' := by
  have := hn.entered h
  unfold walked
  obtain rfl | rfl := hW <;> omega

/-- The part of a cascade from the bucket of the first of some updates on, with `n` bytes left. -/
abbrev CascadeReads (W : Nat) (e : Endian) (a : Discipline) (us : List (Nat → Quad → Quad)) (n : Nat)
    (f : Memory → Work → Except BusStop Work) : Prop :=
  ∀ w : Work, PosAligned W a w.pos → w.pos.toNat + n ≤ 2 ^ 64 →
    Reads BusStop.addr (undersideSize W a) w.pos.toNat n
      (fun m w' => w'.At (cascadeSpec W e us (m.bytes w.pos.toNat n) w.acc) (w.pos + BitVec.ofNat 64 (walked W n)) w.rem.toNat)
      fun m => f m w

theorem cascadeReads_last {W rem : Nat} (hW : WordSize W) (e : Endian) (a : Discipline) (u : Nat → Quad → Quad) :
    CascadeReads W e a [u] (lastBytes W rem) fun m w => tailLast m W e a rem u w := by
  intro w ha hend
  have hwalk : walked W (lastBytes W rem) = 0 := by
    unfold walked lastBytes uTailLen
    obtain rfl | rfl := hW <;> split_ifs <;> omega
  rw [hwalk]
  by_cases h : 0 < rem
  · have hb : lastBytes W rem = uTailLen W rem := if_pos h
    rw [hb]
    refine (reads_tail (w := { w with phase := .t1 }) (e := e) hW (uTailLen_pos W rem) (uTailLen_le hW rem) ha).conv
      (fun x => { w with phase := .t1, acc := u x w.acc }) id (fun m => ?_) (fun _ => rfl) fun m x hx => ⟨?_, ?_, rfl⟩
    · simp only [tailLast, if_pos h]
      cases Work.tail { w with phase := .t1 } m W e a (uTailLen W rem) <;> rfl
    · rw [cascadeSpec_last hW e u (by rw [Memory.bytes_length, hb]), if_pos h, hx]
    · simp
  · have hb : lastBytes W rem = 0 := if_neg h
    have hrun : (fun m => tailLast m W e a rem u w) = fun _ => .ok w := funext fun m => by rw [tailLast, if_neg h]
    rw [hb, hrun]
    refine reads_pure fun m => ⟨?_, by simp, rfl⟩
    rw [cascadeSpec_last hW e u (by rw [Memory.bytes_length, hb]), if_neg h]

theorem cascadeReads_cons {W thr rem n' : Nat} {e : Endian} {a : Discipline} {us : List (Nat → Quad → Quad)}
    {f : Memory → Work → Except BusStop Work} (hW : WordSize W) (ph : Phase) (u : Nat → Quad → Quad)
    (hthr : us.length * W = thr) (hle : W ≤ thr) (hn : BucketLeft W thr rem n') (hf : CascadeReads W e a us n' f) :
    CascadeReads W e a (u :: us) (bucketBytes W thr rem + n') fun m w => tailWord m W e ph thr rem u w >>= f m := by
  intro w ha hend
  have hW0 : 0 < W := by obtain rfl | rfl := hW <;> decide
  by_cases h : thr < rem
  · have hb : bucketBytes W thr rem = W := if_pos h
    rw [hb] at hend ⊢
    have hspec (m : Memory) : cascadeSpec W e (u :: us) (m.bytes w.pos.toNat (W + n')) w.acc =
        cascadeSpec W e us (m.bytes (w.pos.toNat + W) n') (u (wordValue e (m.bytes w.pos.toNat W)) w.acc) := by
      rw [cascadeSpec_bucket hW0 e u hthr hn (by rw [Memory.bytes_length, hb]), if_pos h,
        Memory.take_bytes m _ (Nat.le_add_right _ _), Memory.drop_bytes m _ (Nat.le_add_right _ _), Nat.add_sub_cancel_left]
    have hword : Reads BusStop.addr (undersideSize W a) w.pos.toNat W
        (fun m w' => w' = { w with phase := ph, acc := u (wordValue e (m.bytes w.pos.toNat W)) w.acc }.advance W)
        fun m => tailWord m W e ph thr rem u w :=
      (reads_fetch (undersideSize_le W a) { w with phase := ph } e 0).conv
        (fun x => { w with phase := ph, acc := u x w.acc }.advance W) id
        (fun m => by
          simp only [tailWord, if_pos h]
          cases Work.fetch { w with phase := ph } m W e 0 <;> rfl)
        (fun _ => rfl) fun m x hx => by rw [hx]; rfl
    refine hword.bind (f := fun w' m => f m w') (.inr (undersideSize_le W a)) ?_
    rintro _ ⟨m0, rfl⟩
    have hadv := toNat_advance_le w.pos W
    have hrest := hf ({ w with phase := ph, acc := u (wordValue e (m0.bytes w.pos.toNat W)) w.acc }.advance W)
      (ha.advance hW dvd_rfl) ((Nat.add_le_add_right hadv _).trans (by omega))
    refine (Reads.of_advance (p := w.pos) (c := W) hrest (by omega)).imp fun m w' hw' heq => ⟨?_, ?_, hw'.rem⟩
    · have hacc : u (wordValue e (m0.bytes w.pos.toNat W)) w.acc = u (wordValue e (m.bytes w.pos.toNat W)) w.acc :=
        congrArg Work.acc heq
      rw [hw'.acc, hspec, ← hacc]
      simp only [Work.advance, Memory.bytes_advance m (show w.pos.toNat + W + n' ≤ 2 ^ 64 by omega)]
    · rw [hw'.pos, walked_bucket hW hle hn h, BitVec.ofNat_add, ← BitVec.add_assoc]
      rfl
  · have hb : bucketBytes W thr rem = 0 := if_neg h
    have hrun : (fun m => tailWord m W e ph thr rem u w >>= f m) = fun m => f m w :=
      funext fun m => by rw [tailWord, if_neg h]; rfl
    rw [hb, Nat.zero_add] at hend ⊢
    rw [hrun]
    refine (hf w ha hend).imp fun m w' hw' => ⟨?_, hw'.pos, hw'.rem⟩
    rw [hw'.acc, cascadeSpec_bucket hW0 e u hthr hn (by rw [Memory.bytes_length, hb, Nat.zero_add]), if_neg h]

theorem cascadeReads_cascade {W rem : Nat} (hW : WordSize W) (hrem : rem ≤ 4 * W) (e : Endian) (a : Discipline)
    (u4 u3 u2 u1 : Nat → Quad → Quad) :
    CascadeReads W e a [u4, u3, u2, u1] rem fun m w => cascade m W e a rem u4 u3 u2 u1 w := by
  obtain ⟨h1, h2, h3⟩ := bucketLeft hW hrem
  have hall := cascadeReads_cons hW .t4 u4 (by simp) (by omega) h3 <|
    cascadeReads_cons hW .t3 u3 (by simp) (by omega) h2 <|
    cascadeReads_cons hW .t2 u2 (by simp) le_rfl h1 <| cascadeReads_last (rem := rem) hW e a u1
  rwa [cascade_bytes hW hrem] at hall

end Sys2Proof.Machine
end

section
/-! PROOFS. The four one-shot bodies and the digests of the commands that run them (spec/42_gen1_body.md R176, 43_gen2_body.md R195,
44_gen3_body.md R216, R217, 46_dispatch_adapter_control.md R272, R275). -/

namespace Sys2Proof.Machine

open Sys2Proof

/-! ### The generation-3 cascade over memory -/

theorem reads_memSource_tailword {a : Discipline} {w : Work} {i r : Nat} (hr : 1 ≤ r) (hr8 : r ≤ 8)
    (ha : PosAligned 8 a w.pos) (hend : w.pos.toNat + 8 * i + r ≤ 2 ^ 64) :
    Reads BusStop.addr (undersideSize 8 a) (w.pos.toNat + 8 * i) r
      (fun m x => x = sourceWord (m.bytes (w.pos.toNat + 8 * i) r)) fun m => (memSource m a w).tailword i r := by
  have h := reads_tail (w := w.advance (8 * i)) (e := .little) (.inr rfl) hr hr8
    (ha.advance (.inr rfl) (dvd_mul_right 8 i))
  refine Reads.of_advance (p := w.pos) (c := 8 * i) (h.conv (BitVec.ofNat 64) (fun x => { x with work := w }) (fun m => ?_)
    (fun _ => rfl) fun m x hx => ?_) hend
  · show (((w.advance (8 * i)).tail m 8 .little a r).mapError _).map (BitVec.ofNat 64) = _
    rfl
  · rw [hx, sourceWord, ← Memory.bytes_advance m hend]
    rfl

/-- An update of the generation-3 cascades on the number a source's word stands for. -/
abbrev wordUpdate (upd : U64 → Quad → Quad) : Nat → Quad → Quad := fun x => upd (.ofNat 64 x)

/-- The part of a generation-3 cascade from the bucket of the first of some updates on, with `n` bytes left. -/
abbrev SourceReads (a : Discipline) (w : Work) (us : List (Nat → Quad → Quad)) (n : Nat)
    (f : Memory → Nat × Quad → Except BusStop Quad) : Prop :=
  ∀ iq : Nat × Quad, w.pos.toNat + 8 * iq.1 + n ≤ 2 ^ 64 →
    Reads BusStop.addr (undersideSize 8 a) (w.pos.toNat + 8 * iq.1) n
      (fun m q => q = cascadeSpec 8 .little us (m.bytes (w.pos.toNat + 8 * iq.1) n) iq.2) fun m => f m iq

theorem sourceReads_last {a : Discipline} {w : Work} (rem : Nat) (upd : U64 → Quad → Quad) (ha : PosAligned 8 a w.pos) :
    SourceReads a w [wordUpdate upd] (lastBytes 8 rem) fun m iq => g3Last (memSource m a w) rem upd iq := by
  intro iq hend
  by_cases h : 0 < rem
  · have hb : lastBytes 8 rem = uTailLen 8 rem := if_pos h
    rw [hb] at hend ⊢
    refine (reads_memSource_tailword (uTailLen_pos 8 rem) (uTailLen_le (.inr rfl) rem) ha hend).conv (fun x => upd x iq.2) id
      (fun m => ?_) (fun _ => rfl) fun m x hx => ?_
    · simp only [g3Last, if_pos h]
      cases (memSource m a w).tailword iq.1 (uTailLen 8 rem) <;> rfl
    · rw [cascadeSpec_last (.inr rfl) .little _ (by rw [Memory.bytes_length, hb]), if_pos h, hx]
      rfl
  · have hb : lastBytes 8 rem = 0 := if_neg h
    have hrun : (fun m => g3Last (memSource m a w) rem upd iq) = fun _ => .ok iq.2 := funext fun m => by rw [g3Last, if_neg h]
    rw [hb, hrun]
    refine reads_pure fun m => ?_
    rw [cascadeSpec_last (.inr rfl) .little _ (by rw [Memory.bytes_length, hb]), if_neg h]

theorem sourceReads_cons {thr rem n' : Nat} {a : Discipline} {w : Work} {us : List (Nat → Quad → Quad)}
    {f : Memory → Nat × Quad → Except BusStop Quad} (upd : U64 → Quad → Quad) (hthr : us.length * 8 = thr)
    (hn : BucketLeft 8 thr rem n') (hf : SourceReads a w us n' f) :
    SourceReads a w (wordUpdate upd :: us) (bucketBytes 8 thr rem + n')
      fun m iq => g3Word (memSource m a w) thr rem upd iq >>= f m := by
  intro iq hend
  by_cases h : thr < rem
  · have hb : bucketBytes 8 thr rem = 8 := if_pos h
    rw [hb] at hend ⊢
    have hspec (m : Memory) : cascadeSpec 8 .little (wordUpdate upd :: us) (m.bytes (w.pos.toNat + 8 * iq.1) (8 + n')) iq.2 =
        cascadeSpec 8 .little us (m.bytes (w.pos.toNat + 8 * (iq.1 + 1)) n')
          (upd (sourceWord (m.bytes (w.pos.toNat + 8 * iq.1) 8)) iq.2) := by
      rw [cascadeSpec_bucket (by decide) .little _ hthr hn (by rw [Memory.bytes_length, hb]), if_pos h,
        Memory.take_bytes m _ (Nat.le_add_right _ _), Memory.drop_bytes m _ (Nat.le_add_right _ _), Nat.add_sub_cancel_left,
        Nat.mul_succ, Nat.add_assoc]
      rfl
    have hword : Reads BusStop.addr (undersideSize 8 a) (w.pos.toNat + 8 * iq.1) 8
        (fun m iq' => iq' = (iq.1 + 1, upd (sourceWord (m.bytes (w.pos.toNat + 8 * iq.1) 8)) iq.2))
        fun m => g3Word (memSource m a w) thr rem upd iq :=
      (reads_memSource_word (undersideSize_le 8 a) a w iq.1).conv (fun x => (iq.1 + 1, upd x iq.2)) id
        (fun m => by
          simp only [g3Word, if_pos h]
          cases (memSource m a w).word iq.1 <;> rfl)
        (fun _ => rfl) fun m x hx => by rw [hx]
    refine (hword.bind_eq (f := fun iq' m => f m iq')
      (G := fun iq' m => cascadeSpec 8 .little us (m.bytes (w.pos.toNat + 8 * iq'.1) n') iq'.2)
      (.inr (undersideSize_le 8 a)) fun m0 => ?_).imp fun m q hq => by rw [hq, hspec]
    rw [Nat.add_assoc, ← Nat.mul_succ]
    exact hf (iq.1 + 1, _) (by simp only; omega)
  · have hb : bucketBytes 8 thr rem = 0 := if_neg h
    have hrun : (fun m => g3Word (memSource m a w) thr rem upd iq >>= f m) = fun m => f m iq :=
      funext fun m => by rw [g3Word, if_neg h]; rfl
    rw [hb, Nat.zero_add] at hend ⊢
    rw [hrun]
    refine (hf iq hend).imp fun m q hq => ?_
    rw [hq, cascadeSpec_bucket (by decide) .little _ hthr hn (by rw [Memory.bytes_length, hb, Nat.zero_add]), if_neg h]

theorem reads_g3Cascade {a : Discipline} {w : Work} {rem : Nat} (u4 u3 u2 u1 : U64 → Quad → Quad) (q : Quad)
    (ha : PosAligned 8 a w.pos) (hrem : rem ≤ 32) (hend : w.pos.toNat + rem ≤ 2 ^ 64) :
    Reads BusStop.addr (undersideSize 8 a) w.pos.toNat rem
      (fun m q' => q' = cascadeSpec 8 .little [wordUpdate u4, wordUpdate u3, wordUpdate u2, wordUpdate u1]
        (m.bytes w.pos.toNat rem) q)
      fun m => g3Cascade (memSource m a w) rem u4 u3 u2 u1 q := by
  obtain ⟨h1, h2, h3⟩ := bucketLeft (W := 8) (.inr rfl) hrem
  have hall := sourceReads_cons u4 (by simp) h3 <| sourceReads_cons u3 (by simp) h2 <|
    sourceReads_cons u2 (by simp) h1 <| sourceReads_last (rem := rem) u1 ha
  rw [cascade_bytes (.inr rfl) hrem] at hall
  exact hall (0, q) hend

/-! ### The bodies -/

/-- The accumulators a body leaves, from those it starts with (R170, R190, R210): `bulk` over the whole blocks of an input longer
than one, then `tail` over the rest. -/
def bodyAcc (size : Nat) (bulk : List (List Byte) → Quad → Quad) (tail : List Byte → Quad → Quad) (bs : List Byte) (q : Quad) :
    Quad :=
  if size < bs.length then tail (afterBlocks size bs) (bulk (pieces size (bs.length / size) bs) q) else tail bs q

theorem bodyAcc_bytes (m : Memory) (a size len : Nat) (bulk : List (List Byte) → Quad → Quad)
    (tail : List Byte → Quad → Quad) (q : Quad) :
    bodyAcc size bulk tail (m.bytes a len) q =
      tail (m.bytes (a + bulkBytes size len) (len - bulkBytes size len)) (bulkAcc size bulk (m.bytes a len) q) := by
  unfold bodyAcc bulkAcc bulkBytes
  rw [Memory.bytes_length]
  split_ifs
  · rw [afterBlocks, Memory.bytes_length, Memory.drop_bytes m a (Nat.mul_div_le len size)]
  · rfl

/-- The scratch registers at the end of a body that started at `p` over `len` bytes: `POS` at the last word (R39), the length handed
to the cascade in `REM`. -/
def bodyEnd (W len : Nat) (p : U64) (acc : Quad) : Work where
  acc := acc
  pos := p + .ofNat 64 (bulkBytes (4 * W) len) + .ofNat 64 (walked W (len - bulkBytes (4 * W) len))
  rem := .ofNat 6 (len - bulkBytes (4 * W) len)
  phase := .final

/-- A body as a run over the `len` bytes at `POS`, with the accumulators it leaves. -/
abbrev BodyReads (W len : Nat) (a : Discipline) (acc : List Byte → Quad → Quad) (f : Memory → Work → Except BusStop Work) :
    Prop :=
  ∀ w : Work, PosAligned W a w.pos → w.pos.toNat + len ≤ 2 ^ 64 →
    Reads BusStop.addr (undersideSize W a) w.pos.toNat len
      (fun m w' => w' = bodyEnd W len w.pos (acc (m.bytes w.pos.toNat len) w.acc)) fun m => f m w

/-- A tail part as a run over the `REM` bytes at `POS`. -/
abbrev TailReads (W : Nat) (a : Discipline) (tail : List Byte → Quad → Quad) (f : Memory → Work → Except BusStop Work) :
    Prop :=
  ∀ w : Work, PosAligned W a w.pos → w.rem.toNat ≤ 4 * W → w.pos.toNat + w.rem.toNat ≤ 2 ^ 64 →
    Reads BusStop.addr (undersideSize W a) w.pos.toNat w.rem.toNat
      (fun m w' => w' = ⟨tail (m.bytes w.pos.toNat w.rem.toNat) w.acc, w.pos + .ofNat 64 (walked W w.rem.toNat), w.rem, .final⟩)
      fun m => f m w

theorem reads_bulk_bind {W len : Nat} {a : Discipline} {p : U64} {q : Quad} {bulk : List (List Byte) → Quad → Quad}
    {tail : List Byte → Quad → Quad} {r : Memory → Except BusStop Work} {f : Memory → Work → Except BusStop Work}
    (hW : WordSize W) (ha : PosAligned W a p) (hend : p.toNat + len ≤ 2 ^ 64)
    (hr : Reads BusStop.addr (undersideSize W a) p.toNat (bulkBytes (4 * W) len)
      (fun m w => w.At (bulkAcc (4 * W) bulk (m.bytes p.toNat len) q) (p + .ofNat 64 (bulkBytes (4 * W) len))
        (len - bulkBytes (4 * W) len)) r)
    (hf : TailReads W a tail f) :
    Reads BusStop.addr (undersideSize W a) p.toNat len
      (fun m w => w = bodyEnd W len p (bodyAcc (4 * W) bulk tail (m.bytes p.toNat len) q)) fun m => r m >>= f m := by
  have hle := bulkBytes_le (4 * W) len
  have hrest := sub_bulkBytes_le (size := 4 * W) (by omega) len
  have hword : bulkBytes (4 * W) len = 0 ∨ undersideSize W a ≤ bulkBytes (4 * W) len := by
    have hu := undersideSize_le W a
    unfold bulkBytes
    split_ifs with h
    · have : 1 ≤ len / (4 * W) := (Nat.one_le_div_iff (by omega)).2 (by omega)
      exact .inr (by nlinarith)
    · exact .inl rfl
  suffices h : Reads BusStop.addr (undersideSize W a) p.toNat (bulkBytes (4 * W) len + (len - bulkBytes (4 * W) len))
      (fun m w => w = bodyEnd W len p (bodyAcc (4 * W) bulk tail (m.bytes p.toNat len) q)) fun m => r m >>= f m by
    rwa [Nat.add_sub_cancel' hle] at h
  refine hr.bind (f := fun w m => f m w) hword ?_
  rintro w ⟨m0, hw⟩
  have hadv := toNat_advance_le p (bulkBytes (4 * W) len)
  have h := hf w (hw.pos ▸ ha.advance hW (dvd_bulkBytes (dvd_mul_left W 4) len)) (by rw [hw.rem]; omega)
    (by rw [hw.rem, hw.pos]; omega)
  rw [hw.rem, hw.pos] at h
  refine (Reads.of_advance h (by omega)).imp fun m w' hw' hat => ?_
  rw [hw', hat.acc, Memory.bytes_advance m (by omega), ← bodyAcc_bytes m p.toNat (4 * W) len bulk tail q, bodyEnd, ← hw.rem, BitVec.ofNat_toNat,
    BitVec.setWidth_eq]

theorem tailReads_cascade {W : Nat} {e : Endian} {a : Discipline} {u4 u3 u2 u1 : Nat → Quad → Quad} (hW : WordSize W) :
    TailReads W a (cascadeSpec W e [u4, u3, u2, u1]) fun m w =>
      cascade m W e a w.rem.toNat u4 u3 u2 u1 w >>= fun w => .ok { w with phase := .final } := by
  intro w ha hrem hend
  refine (cascadeReads_cascade hW hrem e a u4 u3 u2 u1 w ha hend).bind_ok _ fun m w' hw' => ?_
  rw [Work.mk.injEq]
  exact ⟨hw'.acc, hw'.pos, BitVec.eq_of_toNat_eq hw'.rem, rfl⟩

/-- What generation 1 does to the accumulators. -/
def g1Acc (k : Config) (e : Endian) (seed len : U64) (bs : List Byte) (q : Quad) : Quad :=
  bodyAcc 16 (fun ps q => uG1Fold k (ps.foldl (g1Block k e) (uG1BulkInit q)))
    (cascadeSpec 4 e [g1UpdAB k.q4, g1UpdBA k.q3, g1UpdAB k.q2, g1UpdBA k.q1]) bs (uG1Init seed len q)

theorem bodyReads_g1Body (k : Config) (e : Endian) (a : Discipline) (seed len : U64) :
    BodyReads 4 len.toNat a (g1Acc k e seed len) fun m w => g1Body k m e a seed len w := fun w ha hend =>
  reads_bulk_bind (.inl rfl) ha hend
    (reads_bulk (w := { w with acc := uG1Init seed len w.acc })
      (w1 := { w with phase := .bulk, acc := uG1BulkInit (uG1Init seed len w.acc) })
      (w2 := { w with phase := .init, acc := uG1Init seed len w.acc, rem := .ofNat 6 len.toNat })
      (after := fun v => { v with phase := .fold, acc := uG1Fold k v.acc, rem := .ofNat 6 (len.toNat % 16) })
      (blockReads_uG1Blk (undersideSize_le 4 a) k e) ((undersideSize_le 4 a).trans (by decide)) (.inl rfl) hend rfl rfl rfl
      rfl rfl (fun _ => rfl) (fun _ => rfl) (fun _ => rfl) fun _ => rfl)
    (tailReads_cascade (.inl rfl))

/-- What generation 2 does to the accumulators. -/
def g2Acc (k : Config) (e : Endian) (seed len : U64) (bs : List Byte) (q : Quad) : Quad :=
  bodyAcc 32 (fun ps q => uG2Fold k (ps.foldl (g2Block k e) (uG2BulkInit seed len q)))
    (cascadeSpec 8 e [g2UpdB k k.p4, g2UpdA k k.p3, g2UpdB k k.p2, g2UpdA k k.p1]) bs (uG2Init seed len q)

theorem bodyReads_g2Body (k : Config) (e : Endian) (a : Discipline) (seed len : U64) :
    BodyReads 8 len.toNat a (g2Acc k e seed len) fun m w => g2Body k m e a seed len w := fun w ha hend =>
  reads_bulk_bind (.inr rfl) ha hend
    (reads_bulk (w := { w with acc := uG2Init seed len w.acc })
      (w1 := { w with phase := .bulk, acc := uG2BulkInit seed len (uG2Init seed len w.acc) })
      (w2 := { w with phase := .init, acc := uG2Init seed len w.acc, rem := .ofNat 6 len.toNat })
      (after := fun v => { v with phase := .fold, acc := uG2Fold k v.acc, rem := .ofNat 6 (len.toNat % 32) })
      (blockReads_uG2Blk (undersideSize_le 8 a) k e) ((undersideSize_le 8 a).trans (by decide)) (.inr rfl) hend rfl rfl rfl
      rfl rfl (fun _ => rfl) (fun _ => rfl) (fun _ => rfl) fun _ => rfl)
    (tailReads_cascade (.inr rfl))

/-- The generation-3 tail, with either cascade. -/
theorem tailReads_g3MemTail {a : Discipline} {u4 u3 u2 u1 : U64 → Quad → Quad}
    {tail : WordSource BusStop → Nat → Quad → Except BusStop Quad}
    (htail : ∀ src rem q, tail src rem q = g3Cascade src rem u4 u3 u2 u1 q) :
    TailReads 8 a (cascadeSpec 8 .little [wordUpdate u4, wordUpdate u3, wordUpdate u2, wordUpdate u1])
      fun m w => g3MemTail m a tail w := by
  intro w ha hrem hend
  refine (reads_g3Cascade (w := { w with phase := cascadeEntry 8 w.rem.toNat }) u4 u3 u2 u1 w.acc ha hrem hend).conv
    (fun q => ⟨q, w.pos + .ofNat 64 (walked 8 w.rem.toNat), w.rem, .final⟩) id (fun m => ?_) (fun _ => rfl)
    fun m q hq => by rw [hq]
  simp only [g3MemTail, htail]
  cases g3Cascade (memSource m a { w with phase := cascadeEntry 8 w.rem.toNat }) w.rem.toNat u4 u3 u2 u1 w.acc <;> rfl

/-- What the 64-bit generation-3 body does to the accumulators. -/
def g3Acc (k : Config) (seed len : U64) (bs : List Byte) : Quad :=
  bodyAcc 32 (fun ps q => uG3Squash k (ps.foldl (g3Block k) q)) (g3TailAB k) bs (uG3Init seed len)

theorem bodyReads_g3Body (k : Config) (a : Discipline) (seed len : U64) :
    BodyReads 8 len.toNat a (fun bs _ => g3Acc k seed len bs) fun m w => g3Body k m a seed len w := fun w ha hend =>
  reads_bulk_bind (.inr rfl) ha hend
    (reads_bulk (pre := id) (fold := uG3Squash k) (w := { w with acc := uG3Init seed len })
      (w1 := { w with phase := .bulk, acc := uG3Init seed len })
      (w2 := { w with phase := .init, acc := uG3Init seed len, rem := .ofNat 6 len.toNat })
      (after := fun v => g3Fold k { v with rem := .ofNat 6 (len.toNat % 32) })
      (blockReads_g3MemBlk (undersideSize_le 8 a) k a) ((undersideSize_le 8 a).trans (by decide)) (.inr rfl) hend rfl rfl rfl
      rfl rfl (fun _ => rfl) (fun _ => rfl) (fun _ => rfl) fun _ => rfl)
    (tailReads_g3MemTail fun _ _ _ => rfl)

/-- What the 128-bit generation-3 body does to the accumulators. -/
def g3xAcc (k : Config) (seed len : U64) (bs : List Byte) : Quad :=
  bodyAcc 32 (fun ps q => ps.foldl (g3Block k) q) (g3TailABCD k) bs (uG3Init seed len)

theorem bodyReads_g3xBody (k : Config) (a : Discipline) (seed len : U64) :
    BodyReads 8 len.toNat a (fun bs _ => g3xAcc k seed len bs) fun m w => g3xBody k m a seed len w := fun w ha hend =>
  reads_bulk_bind (.inr rfl) ha hend
    (reads_bulk (pre := id) (fold := id) (w := { w with acc := uG3Init seed len })
      (w1 := { w with phase := .bulk, acc := uG3Init seed len })
      (w2 := { w with phase := .init, acc := uG3Init seed len, rem := .ofNat 6 len.toNat })
      (after := fun v => { v with rem := .ofNat 6 (len.toNat % 32) })
      (blockReads_g3MemBlk (undersideSize_le 8 a) k a) ((undersideSize_le 8 a).trans (by decide)) (.inr rfl) hend rfl rfl rfl
      rfl rfl (fun _ => rfl) (fun _ => rfl) (fun _ => rfl) fun _ => rfl)
    (tailReads_g3MemTail fun _ _ _ => rfl)

end Sys2Proof.Machine
end

section
/-! PROOFS. What the one-shot commands answer (spec/42_gen1_body.md R176, 43_gen2_body.md R195, 44_gen3_body.md R216, R217,
46_dispatch_adapter_control.md R272, R275): each is the one-shot frame around its body, and its digest that of the bytes read. -/

namespace Sys2Proof.Machine

open Sys2Proof

/-! ### The digests as functions of the bytes -/

/-- The accumulators that generations 1 and 2 hash in; the other two are written before they are read. -/
structure Quad.SameAB (q q' : Quad) : Prop where
  a : q.a = q'.a
  b : q.b = q'.b

theorem cascadeSpec_sameAB {W : Nat} {e : Endian} {us : List (Nat → Quad → Quad)}
    (hus : ∀ u ∈ us, ∀ x q q', q.SameAB q' → (u x q).SameAB (u x q')) (bs : List Byte) {q q' : Quad} (h : q.SameAB q') :
    (cascadeSpec W e us bs q).SameAB (cascadeSpec W e us bs q') := by
  dsimp only [cascadeSpec]
  have hmem : ∀ z ∈ (us.drop (us.length - (bs.length + W - 1) / W)).zip (pieces W ((bs.length + W - 1) / W) bs), z.1 ∈ us :=
    fun z hz => List.mem_of_mem_drop (List.of_mem_zip hz).1
  generalize (us.drop (us.length - (bs.length + W - 1) / W)).zip (pieces W ((bs.length + W - 1) / W) bs) = zs at hmem
  induction zs generalizing q q' with
  | nil => exact h
  | cons z zs ih =>
    have hz : (z.1 (wordValue e z.2) q).SameAB (z.1 (wordValue e z.2) q') := hus z.1 (hmem z (List.mem_cons_self ..)) _ q q' h
    exact ih hz fun y hy => hmem y (List.mem_cons_of_mem _ hy)

theorem g1UpdAB_sameAB (p : U32) (x : Nat) {q q' : Quad} (h : q.SameAB q') : (g1UpdAB p x q).SameAB (g1UpdAB p x q') :=
  ⟨by simp [g1UpdAB, h.a, h.b], by simp [g1UpdAB, h.a, h.b]⟩

theorem g1UpdBA_sameAB (p : U32) (x : Nat) {q q' : Quad} (h : q.SameAB q') : (g1UpdBA p x q).SameAB (g1UpdBA p x q') :=
  ⟨by simp [g1UpdBA, h.a, h.b], by simp [g1UpdBA, h.a, h.b]⟩

theorem g2UpdA_sameAB (k : Config) (p : U64) (x : Nat) {q q' : Quad} (h : q.SameAB q') :
    (g2UpdA k p x q).SameAB (g2UpdA k p x q') :=
  ⟨by simp [g2UpdA, h.a, h.b], by simp [g2UpdA, h.a, h.b]⟩

theorem g2UpdB_sameAB (k : Config) (p : U64) (x : Nat) {q q' : Quad} (h : q.SameAB q') :
    (g2UpdB k p x q).SameAB (g2UpdB k p x q') :=
  ⟨by simp [g2UpdB, h.a, h.b], by simp [g2UpdB, h.a, h.b]⟩

theorem g1Acc_sameAB (k : Config) (e : Endian) (seed len : U64) (bs : List Byte) (q q' : Quad) :
    (g1Acc k e seed len bs q).SameAB (g1Acc k e seed len bs q') := by
  unfold g1Acc bodyAcc
  split_ifs
  · exact ⟨rfl, rfl⟩
  · refine cascadeSpec_sameAB (fun u hu x q q' h => ?_) bs ⟨rfl, rfl⟩
    simp only [List.mem_cons, List.not_mem_nil, or_false] at hu
    obtain rfl | rfl | rfl | rfl := hu
    · exact g1UpdAB_sameAB _ x h
    · exact g1UpdBA_sameAB _ x h
    · exact g1UpdAB_sameAB _ x h
    · exact g1UpdBA_sameAB _ x h

theorem g2Acc_sameAB (k : Config) (e : Endian) (seed len : U64) (bs : List Byte) (q q' : Quad) :
    (g2Acc k e seed len bs q).SameAB (g2Acc k e seed len bs q') := by
  unfold g2Acc bodyAcc
  split_ifs
  · exact ⟨rfl, rfl⟩
  · refine cascadeSpec_sameAB (fun u hu x q q' h => ?_) bs ⟨rfl, rfl⟩
    simp only [List.mem_cons, List.not_mem_nil, or_false] at hu
    obtain rfl | rfl | rfl | rfl := hu
    · exact g2UpdB_sameAB k _ x h
    · exact g2UpdA_sameAB k _ x h
    · exact g2UpdB_sameAB k _ x h
    · exact g2UpdA_sameAB k _ x h

section
variable {k : Config} {e : Endian} {seed len : U64} {bs : List Byte} {q : Quad} {w : Work}

theorem g1Digest_eq_hash1Spec (hlen : BitVec.ofNat 64 bs.length = len) (hw : w.acc = g1Acc k e seed len bs q) :
    g1Digest k w = hash1Spec k e seed bs := by
  have hspec : hash1Spec k e seed bs =
      uFin32 k (lo32 (g1Acc k e seed len bs Quad.zero).a) (lo32 (g1Acc k e seed len bs Quad.zero).b) := by
    rw [← hlen]
    rfl
  have hab := g1Acc_sameAB k e seed len bs q Quad.zero
  rw [g1Digest, hw, hspec, hab.a, hab.b]

theorem g2Digest_eq_hash2Spec (hlen : BitVec.ofNat 64 bs.length = len) (hw : w.acc = g2Acc k e seed len bs q) :
    g2Digest k w = hash2Spec k e seed bs := by
  have hspec : hash2Spec k e seed bs = uFinW k (g2Acc k e seed len bs Quad.zero).a (g2Acc k e seed len bs Quad.zero).b := by
    rw [← hlen]
    rfl
  have hab := g2Acc_sameAB k e seed len bs q Quad.zero
  rw [g2Digest, hw, hspec, hab.a, hab.b]

theorem hash3Spec_eq (hlen : BitVec.ofNat 64 bs.length = len) :
    hash3Spec k seed bs = uFin64 k (g3Acc k seed len bs).a (g3Acc k seed len bs).b := by
  rw [← hlen]
  rfl

theorem hash3xSpec_eq (hlen : BitVec.ofNat 64 bs.length = len) :
    hash3xSpec k seed bs =
      uFin128 k (g3xAcc k seed len bs).a (g3xAcc k seed len bs).b (g3xAcc k seed len bs).c (g3xAcc k seed len bs).d := by
  rw [← hlen]
  rfl

end

/-! ### The dispatched body -/

/-- The body a selection runs where this hardware has it (R273). -/
def body0 (k : Config) (impl : Impl) (e : Endian) (a : Discipline) (seed len : U64) (m : Memory) (w : Work) :
    Except BusStop Work :=
  match impl with
  | .gen1 => g1Body k m e a seed len w
  | _ => g2Body k m e a seed len w

/-- What that body does to the accumulators. -/
def acc0 (k : Config) (impl : Impl) (e : Endian) (seed len : U64) : List Byte → Quad → Quad :=
  match impl with
  | .gen1 => g1Acc k e seed len
  | _ => g2Acc k e seed len

/-- The digest that body leaves in the working bank. -/
def digest0 (k : Config) (impl : Impl) (w : Work) : U64 :=
  match impl with
  | .gen1 => g1Digest k w
  | _ => g2Digest k w

theorem bodyReads_body0 (k : Config) (impl : Impl) (e : Endian) (a : Discipline) (seed len : U64) :
    BodyReads impl.wordSize len.toNat a (acc0 k impl e seed len) fun m w => body0 k impl e a seed len m w := by
  cases impl with
  | gen1 => exact bodyReads_g1Body k e a seed len
  | gen2 | narrowRound | narrowSimd | wideSimd => exact bodyReads_g2Body k e a seed len

theorem uBody0_eq_oneShot {impl : Impl} (h : impl.present = true) (e : Endian) (a : Discipline) (seed : U64) (s : State) :
    uBody0 impl e a seed s =
      oneShot impl.wordSize a (body0 s.cfg impl e a seed s.len s.mem) s >>= fun t => .ok (t, digest0 t.cfg impl t.work) := by
  cases impl with
  | gen1 | gen2 => rfl
  | narrowRound | narrowSimd | wideSimd => cases h

theorem digest0_eq_body0Spec {k : Config} {e : Endian} {seed len : U64} {bs : List Byte} {q : Quad} {w : Work} {impl : Impl}
    (hlen : BitVec.ofNat 64 bs.length = len) (hw : w.acc = acc0 k impl e seed len bs q) :
    digest0 k impl w = body0Spec k impl e seed bs := by
  cases impl with
  | gen1 => exact g1Digest_eq_hash1Spec hlen hw
  | gen2 | narrowRound | narrowSimd | wideSimd => exact g2Digest_eq_hash2Spec hlen hw

/-! ### The one-shot commands -/

/-- The body of a memory-reading command but `SUPD`, over any memory. -/
def State.bodyOf (s : State) : Instr → Memory → Work → Except BusStop Work
  | .hash0 e a => body0 s.cfg s.resolved e a s.seedX s.len
  | .hash1 e a => fun m => g1Body s.cfg m e a s.seedX s.len
  | .hash2 e a => fun m => g2Body s.cfg m e a s.seedX s.len
  | .hash3 a => fun m => g3Body s.cfg m a s.seedX s.len
  | .hash3x a => fun m => g3xBody s.cfg m a s.seedX s.len
  | .awrite e a => body0 s.cfg s.resolved e a s.astate s.len
  | _ => fun _ => .ok

/-- What that body does to the accumulators, as a function of the bytes of the input. -/
def State.accOf (s : State) : Instr → List Byte → Quad → Quad
  | .hash0 e _ => acc0 s.cfg s.resolved e s.seedX s.len
  | .hash1 e _ => g1Acc s.cfg e s.seedX s.len
  | .hash2 e _ => g2Acc s.cfg e s.seedX s.len
  | .hash3 _ => fun bs _ => g3Acc s.cfg s.seedX s.len bs
  | .hash3x _ => fun bs _ => g3xAcc s.cfg s.seedX s.len bs
  | .awrite e _ => acc0 s.cfg s.resolved e s.astate s.len
  | _ => fun _ q => q

/-- What the command writes when its body is through, in the state the body leaves. -/
def digestOf (impl : Impl) (i : Instr) (t : State) : State :=
  match i with
  | .hash0 _ _ => t.withResult 0#64 (digest0 t.cfg impl t.work)
  | .hash1 _ _ => t.withResult 0#64 (g1Digest t.cfg t.work)
  | .hash2 _ _ => t.withResult 0#64 (g2Digest t.cfg t.work)
  | .hash3 _ => t.withResult 0#64 (uFin64 t.cfg t.work.acc.a t.work.acc.b)
  | .hash3x _ =>
    let r := uFin128 t.cfg t.work.acc.a t.work.acc.b t.work.acc.c t.work.acc.d
    t.withResult r.1 r.2
  | .awrite _ _ => t.withAstate (digest0 t.cfg impl t.work)
  | _ => t

/-- A command that reads memory in the one-shot frame, once it has its adapter and its body. -/
structure State.OneShot (s : State) (i : Instr) (W : Nat) (a : Discipline) : Prop where
  reads : s.reads i = some (W, a)
  notSupd : i ≠ .supd
  adapter : i.needsAdapter = true → s.avalid = true
  present : i.dispatched = true → s.resolved.present = true

theorem State.oneShot_of_not_dispatched {s : State} {i : Instr} {W : Nat} {a : Discipline} (hr : s.reads i = some (W, a))
    (hi : i ≠ .supd) (hd : i.dispatched = false) : s.OneShot i W a := by
  refine ⟨hr, hi, fun h => ?_, fun h => by simp [hd] at h⟩
  cases i with
  | awrite => cases hd
  | afin => cases hr
  | _ => cases h

theorem State.oneShot_of_dispatched {s : State} {i : Instr} {W : Nat} {a : Discipline} (hr : s.reads i = some (W, a))
    (hd : i.dispatched = true) (ha : i.needsAdapter = true → s.avalid = true) (hp : s.resolved.present = true) :
    s.OneShot i W a :=
  ⟨hr, fun hi => (by rw [hi] at hd; cases hd), ha, fun _ => hp⟩

theorem State.OneShot.bodyReads {s : State} {i : Instr} {W : Nat} {a : Discipline} (h : s.OneShot i W a) :
    BodyReads W s.len.toNat a (s.accOf i) fun m w => s.bodyOf i m w := by
  have hr := h.reads
  cases i with
  | supd => exact absurd rfl h.notSupd
  | nop | clrerr | sinit | sfin | sfinx | ainit | afin => cases hr
  | hash0 e a' =>
    cases hr
    exact bodyReads_body0 s.cfg s.resolved e a s.seedX s.len
  | hash1 e a' =>
    cases hr
    exact bodyReads_g1Body s.cfg e a s.seedX s.len
  | hash2 e a' =>
    cases hr
    exact bodyReads_g2Body s.cfg e a s.seedX s.len
  | hash3 a' =>
    cases hr
    exact bodyReads_g3Body s.cfg a s.seedX s.len
  | hash3x a' =>
    cases hr
    exact bodyReads_g3xBody s.cfg a s.seedX s.len
  | awrite e a' =>
    cases hr
    exact bodyReads_body0 s.cfg s.resolved e a s.astate s.len

theorem State.OneShot.commandBody_eq {s : State} {i : Instr} {W : Nat} {a : Discipline} (h : s.OneShot i W a) :
    commandBody i s = oneShot W a (s.bodyOf i s.mem) (s.checked i) >>= fun t => .ok (digestOf s.resolved i t) := by
  have hr := h.reads
  have hw {j : Instr} (hj : j.dispatched = false) : s.checked j = s := s.checked_of_not_dispatched hj
  cases i with
  | supd => exact absurd rfl h.notSupd
  | nop | clrerr | sinit | sfin | sfinx | ainit | afin => cases hr
  | hash1 e a' | hash2 e a' | hash3 a' | hash3x a' =>
    cases hr
    rw [hw rfl]
    rfl
  | hash0 e a' =>
    cases hr
    rw [show commandBody (.hash0 e a) s = hash0Body e a s from rfl, hash0Body,
      uResolve_eq_checked (i := .hash0 e a) rfl h.adapter]
    dsimp only
    rw [uBody0_eq_oneShot (h.present rfl)]
    show (oneShot s.resolved.wordSize a (s.bodyOf (.hash0 e a) s.mem) (s.checked (.hash0 e a)) >>= _) >>= _ = _
    cases oneShot s.resolved.wordSize a (s.bodyOf (.hash0 e a) s.mem) (s.checked (.hash0 e a)) <;> rfl
  | awrite e a' =>
    cases hr
    rw [show commandBody (.awrite e a) s = awriteBody e a s from rfl, awriteBody, needAdapter, if_pos (h.adapter rfl),
      uResolve_eq_checked (i := .awrite e a) rfl h.adapter]
    dsimp only
    rw [uBody0_eq_oneShot (h.present rfl)]
    show (oneShot s.resolved.wordSize a (s.bodyOf (.awrite e a) s.mem) (s.checked (.awrite e a)) >>= _) >>= _ = _
    cases oneShot s.resolved.wordSize a (s.bodyOf (.awrite e a) s.mem) (s.checked (.awrite e a)) <;> rfl

section
variable {s : State} {W : Nat} {a : Discipline} {body : Work → Except BusStop Work}

theorem oneShot_eq_of_passes (hm : s.Aligned W a) (ho : s.InRange) (body : Work → Except BusStop Work) :
    oneShot W a body s =
      match body { s.work with pos := s.addr } with
      | .ok w => .ok (s.withWork w)
      | .error x => .error ⟨.bus, .ofNat 64 x.addr, s.withWork x.work⟩ := by
  have hmis : ¬ s.misaligned W a = true := fun h => ((misaligned_iff s W a).1 h).2 (hm ((misaligned_iff s W a).1 h).1)
  have hout : ¬ s.outOfRange = true := fun h => absurd ((outOfRange_iff s).1 h) (Nat.not_lt.2 ho)
  exact (if_neg hmis).trans (if_neg hout)

theorem oneShot_of_ok {w : Work} (hm : s.Aligned W a) (ho : s.InRange) (hw : body { s.work with pos := s.addr } = .ok w) :
    oneShot W a body s = .ok (s.withWork w) := by
  rw [oneShot_eq_of_passes hm ho, hw]

theorem oneShot_of_error {x : BusStop} (hm : s.Aligned W a) (ho : s.InRange)
    (hx : body { s.work with pos := s.addr } = .error x) :
    oneShot W a body s = .error ⟨.bus, .ofNat 64 x.addr, s.withWork x.work⟩ := by
  rw [oneShot_eq_of_passes hm ho, hx]

end

/-- The scratch registers at the end of a one-shot command that gets through. -/
def State.endWork (s : State) (i : Instr) (W : Nat) : Work :=
  bodyEnd W s.len.toNat s.addr (s.accOf i s.input s.work.acc)

/-- What a one-shot command leaves when its input is mapped. -/
theorem State.OneShot.commandBody_of_mapped {s : State} {i : Instr} {W : Nat} {a : Discipline} (h : s.OneShot i W a)
    (hm : s.Aligned W a) (ho : s.InRange) (hmap : s.InputMapped) :
    commandBody i s = .ok (digestOf s.resolved i ((s.checked i).withWork (s.endWork i W))) := by
  obtain ⟨w, hw, rfl⟩ := (h.bodyReads { s.work with pos := s.addr } hm ho).ok (m := s.mem) hmap
  rw [h.commandBody_eq, oneShot_of_ok (s := s.checked i) hm ho hw]
  rfl

theorem State.OneShot.start {s : State} {i : Instr} {W : Nat} {a : Discipline} (h : s.OneShot i W a) (w : BitVec 32) :
    (s.retire.startCommand w).OneShot i W a := ⟨h.reads, h.notSupd, h.adapter, h.present⟩

theorem digestOf_completed (s : State) (i j : Instr) (impl : Impl) (sel : Option Impl) (w : Work) :
    (digestOf impl i ({ s.retire.startCommand (encode j) with sel := sel }.withWork w)).complete.redraw =
      digestOf impl i { s.ended j { w with phase := .idle } with sel := sel } := by
  cases s
  cases i <;> rfl

/-- The scratch registers after a one-shot command. -/
def State.afterWork (s : State) (i : Instr) (W : Nat) : Work := { s.endWork i W with phase := .idle }

/-- The completed command: the frame of R102 around the scratch registers, `SEL`, and what the command itself writes. -/
theorem exec_of_oneShot {s : State} {i : Instr} {W : Nat} {a : Discipline} (hs : s.Accepts) (h : s.OneShot i W a)
    (hm : s.Aligned W a) (ho : s.InRange) (hmap : s.InputMapped) :
    exec i s = .next (digestOf s.resolved i { s.ended i (s.afterWork i W) with sel := s.selAfter i }) := by
  rw [exec_eq_commandBody, hs.runCommand_eq, (h.start (encode i)).commandBody_of_mapped hm ho hmap, settle_ok]
  exact congrArg _ (digestOf_completed s i i s.resolved (s.selAfter i) (s.endWork i W))

theorem State.ofNat_input_length (s : State) : BitVec.ofNat 64 s.input.length = s.len := by
  rw [State.input, Memory.bytes_length, BitVec.ofNat_toNat, BitVec.setWidth_eq]

/-- Settles O30: the one-shot frame around the generation-1 body, whose accumulators are those of `hash1Spec`. -/
theorem hash1Result : Obligations.Hash1Result := by
  unfold Obligations.Hash1Result
  intro e a s hs hm ho hmap
  refine ⟨s.afterWork (.hash1 e a) 4, rfl, ?_⟩
  rw [exec_of_oneShot (i := .hash1 e a) hs (State.oneShot_of_not_dispatched rfl nofun rfl) hm ho hmap,
    ← g1Digest_eq_hash1Spec (w := s.afterWork (.hash1 e a) 4) s.ofNat_input_length rfl]
  rfl

/-- Settles O31: the one-shot frame around the generation-2 body, whose accumulators are those of `hash2Spec`. -/
theorem hash2Result : Obligations.Hash2Result := by
  unfold Obligations.Hash2Result
  intro e a s hs hm ho hmap
  refine ⟨s.afterWork (.hash2 e a) 8, rfl, ?_⟩
  rw [exec_of_oneShot (i := .hash2 e a) hs (State.oneShot_of_not_dispatched rfl nofun rfl) hm ho hmap,
    ← g2Digest_eq_hash2Spec (w := s.afterWork (.hash2 e a) 8) s.ofNat_input_length rfl]
  rfl

/-- Settles O32: the one-shot frame around the 64-bit generation-3 body. -/
theorem hash3Result : Obligations.Hash3Result := by
  unfold Obligations.Hash3Result
  intro a s hs hm ho hmap
  refine ⟨s.afterWork (.hash3 a) 8, rfl, ?_⟩
  rw [exec_of_oneShot (i := .hash3 a) hs (State.oneShot_of_not_dispatched rfl nofun rfl) hm ho hmap, hash3Spec_eq s.ofNat_input_length]
  rfl

/-- Settles O33: the one-shot frame around the 128-bit generation-3 body. -/
theorem hash3xResult : Obligations.Hash3xResult := by
  unfold Obligations.Hash3xResult
  intro a s hs hm ho hmap
  refine ⟨s.afterWork (.hash3x a) 8, rfl, ?_⟩
  rw [exec_of_oneShot (i := .hash3x a) hs (State.oneShot_of_not_dispatched rfl nofun rfl) hm ho hmap, hash3xSpec_eq s.ofNat_input_length]
  rfl

/-- Settles O29: the one-shot frame around the body that `SEL` names once it is resolved. -/
theorem hash0Result : Obligations.Hash0Result := by
  unfold Obligations.Hash0Result
  intro e a s hs hp hm ho hmap
  refine ⟨s.afterWork (.hash0 e a) s.resolved.wordSize, rfl, ?_⟩
  rw [exec_of_oneShot (i := .hash0 e a) hs (State.oneShot_of_dispatched rfl rfl (fun h => by cases h) hp) hm ho hmap,
    State.selAfter_of_dispatched rfl (fun h => by cases h),
    ← digest0_eq_body0Spec (w := s.afterWork (.hash0 e a) s.resolved.wordSize) s.ofNat_input_length rfl]
  rfl

/-- Settles O39: as `HASH0`, with the adapter state for the seed and for the digest. -/
theorem awriteResult : Obligations.AwriteResult := by
  unfold Obligations.AwriteResult
  intro e a s hs ha hp hm ho hmap
  refine ⟨s.afterWork (.awrite e a) s.resolved.wordSize, rfl, ?_⟩
  rw [exec_of_oneShot (i := .awrite e a) hs (State.oneShot_of_dispatched rfl rfl (fun _ => ha) hp) hm ho hmap,
    State.selAfter_of_dispatched rfl fun _ => ha,
    ← digest0_eq_body0Spec (w := s.afterWork (.awrite e a) s.resolved.wordSize) s.ofNat_input_length rfl]
  rfl

end Sys2Proof.Machine
end

section
/-! PROOFS. What a command's input decides (spec/20_memory.md R85, R86, spec/40_memory_unit.md R136, spec/60_exceptions.md R295):
`SUPD` as a run over its input, and from it and the one-shot bodies that nothing but the input bytes and their pages matters,
that both disciplines give the same, and what a bus error records. -/

namespace Sys2Proof.Machine

open Sys2Proof

/-! ### `SUPD` as a run over its input -/

theorem reads_memBytes_byte (base j : Nat) :
    Reads id 0 (base + j) 1 (fun m b => b = m.byte (base + j)) fun m => (memBytes m base).byte j := by
  refine Reads.of_bytes (F := fun bs => bs.headD 0#8) (fun m => ?_) fun m i x hx hi => ?_
  · refine (readsAll_memBytes_byte m base j).conv (fun b hb _ => ⟨b, hb, ?_⟩) fun x hx => ⟨x, hx⟩
    cases h : m.read (base + j) 1 with
    | ok bs =>
      simp only [memBytes, h, Except.map] at hb
      rw [← Except.ok.inj hb, (Memory.read_ok m 1 h).1]
    | error x => simp [memBytes, h, Except.map] at hb
  · cases h : m.read (base + j) 1 with
    | ok bs => simp [memBytes, h, Except.map] at hx
    | error y =>
      obtain ⟨d, hd, rfl, hu, hbefore⟩ := Memory.read_error m 1 h
      simp only [memBytes, h, Except.map, Except.error.injEq] at hx
      rw [Memory.stopAddress_of_le (Nat.zero_le _), ← hx, Memory.FirstUnmapped.eq ⟨hu, hbefore⟩ hi]

theorem reads_memBytes_word (base j i : Nat) :
    Reads id 0 (base + j + 8 * i) 8 (fun m x => x = sourceWord (m.bytes (base + j + 8 * i) 8))
      fun m => (memBytes m base).word j i :=
  (reads_uFetch (Nat.zero_le 8) .little (base + j + 8 * i)).conv (BitVec.ofNat 64) id
    (fun m => by
      show (uFetch m 8 .little (base + j + 8 * i)).map (BitVec.ofNat 64) = _
      cases uFetch m 8 .little (base + j + 8 * i) <;> rfl)
    (fun _ => rfl) fun _ _ h => by rw [h]; rfl

/-- A part of `uABSORB` over memory, as a run over the `n` bytes from `a` on. -/
abbrev AbsorbReads (a n : Nat) (r : Memory → Except (AbsorbStop Nat) Absorb) : Prop :=
  Reads AbsorbStop.why 0 a n (fun _ _ => True) r

/-- A read at which a part of `uABSORB` may stop. -/
theorem Reads.absorbStop {α : Type} {a n : Nat} {post : Memory → α → Prop} {r : Memory → Except Nat α}
    (h : Reads id 0 a n post r) (x : Absorb) :
    Reads AbsorbStop.why 0 a n post fun m => (r m).mapError fun y => ⟨y, x⟩ :=
  h.conv id (fun y => ⟨y, x⟩) (fun m => by cases r m <;> rfl) (fun _ => rfl) fun _ _ h => h

theorem absorbReads_copyIn (base n : Nat) : ∀ (j dst : Nat) (x : Absorb),
    AbsorbReads (base + j) n fun m => copyIn (memBytes m base) j dst n x := by
  induction n with
  | zero => exact fun _ _ _ => reads_pure fun _ => trivial
  | succ n ih =>
    intro j dst x
    have hrun (m : Memory) : copyIn (memBytes m base) j dst (n + 1) x =
        ((memBytes m base).byte j).mapError (fun y => ⟨y, x⟩) >>= fun b => copyIn (memBytes m base) (j + 1) (dst + 1) n
          { x with ctx := { x.ctx with buf := x.ctx.buf.setIfInBounds dst b } } := by
      rw [copyIn]
      cases (memBytes m base).byte j <;> rfl
    simp only [AbsorbReads, hrun]
    rw [Nat.add_comm n]
    exact ((reads_memBytes_byte base j).absorbStop x).bind (f := fun b m => copyIn (memBytes m base) (j + 1) (dst + 1) n
      { x with ctx := { x.ctx with buf := x.ctx.buf.setIfInBounds dst b } }) (.inr (Nat.zero_le _))
      fun b _ => (ih (j + 1) (dst + 1) _).imp fun _ _ _ _ => trivial

theorem absorbReads_absorbFill (base chunk : Nat) (x : Absorb) :
    AbsorbReads base chunk fun m => absorbFill (memBytes m base) chunk x :=
  (absorbReads_copyIn base chunk 0 x.ctx.fill.toNat { x with phase := .fillBuf }).conv
    (fun y => { y with ctx := y.ctx.withFill (x.ctx.fill.toNat + chunk) }) id
    (fun m => by
      simp only [absorbFill]
      cases copyIn (memBytes m base) 0 x.ctx.fill.toNat chunk { x with phase := .fillBuf } <;> rfl)
    (fun _ => rfl) fun _ _ _ => trivial

theorem absorbReads_absorbDirect (k : Config) (base n : Nat) : ∀ (j : Nat) (x : Absorb),
    AbsorbReads (base + j) (32 * n) fun m => absorbDirect k (memBytes m base) j n x := by
  induction n with
  | zero => exact fun _ _ => reads_pure fun _ => trivial
  | succ n ih =>
    intro j x
    have hblock := reads_fourWords (Nat.zero_le 8) (fun w0 w1 w2 w3 => uG3Blk k x.ctx.acc w0 w1 w2 w3)
      (reads_memBytes_word base j 0) (reads_memBytes_word base j 1) (reads_memBytes_word base j 2)
      (reads_memBytes_word base j 3)
    have hrun (m : Memory) : absorbDirect k (memBytes m base) j (n + 1) x =
        (do let w0 ← (memBytes m base).word j 0
            let w1 ← (memBytes m base).word j 1
            let w2 ← (memBytes m base).word j 2
            let w3 ← (memBytes m base).word j 3
            .ok (uG3Blk k x.ctx.acc w0 w1 w2 w3) : Except Nat Quad).mapError (fun y => ⟨y, x⟩) >>= fun q =>
          absorbDirect k (memBytes m base) (j + 32) n { x with ctx := { x.ctx with acc := q } } := by
      rw [absorbDirect]
      split
      · next q hq => rw [hq]; rfl
      · next y hy => rw [hy]; rfl
    simp only [AbsorbReads, hrun]
    rw [Nat.mul_succ, Nat.add_comm (32 * n)]
    exact (hblock.absorbStop x).bind (f := fun q m => absorbDirect k (memBytes m base) (j + 32) n
      { x with ctx := { x.ctx with acc := q } }) (.inr (Nat.zero_le _))
      fun q _ => (ih (j + 32) _).imp fun _ _ _ _ => trivial

theorem absorbReads_absorbStash (base j n : Nat) (x : Absorb) :
    AbsorbReads (base + j) n fun m => absorbStash (memBytes m base) j n x := by
  by_cases hn : 0 < n
  · refine (absorbReads_copyIn base n j 0 { x with phase := .stash }).conv
      (fun y => { y with ctx := y.ctx.withFill n }) id (fun m => ?_) (fun _ => rfl) fun _ _ _ => trivial
    simp only [absorbStash, if_pos hn]
    cases copyIn (memBytes m base) j 0 n { x with phase := .stash } <;> rfl
  · obtain rfl : n = 0 := by omega
    exact reads_pure fun _ => trivial

theorem absorbReads_absorbRest (k : Config) (base j n : Nat) (x : Absorb) :
    AbsorbReads (base + j) (n - j) fun m => absorbRest k (memBytes m base) j n x := by
  have h : AbsorbReads (base + j) (32 * ((n - j) / 32) + (n - j - 32 * ((n - j) / 32)))
      fun m => absorbRest k (memBytes m base) j n x := by
    refine (absorbReads_absorbDirect k base ((n - j) / 32) j { x with phase := .direct }).bind
      (f := fun y m => absorbStash (memBytes m base) (j + 32 * ((n - j) / 32)) (n - j - 32 * ((n - j) / 32)) y)
      (.inr (Nat.zero_le _)) fun y _ => ?_
    rw [Nat.add_assoc]
    exact (absorbReads_absorbStash base _ _ y).imp fun _ _ _ _ => trivial
  rwa [show 32 * ((n - j) / 32) + (n - j - 32 * ((n - j) / 32)) = n - j by omega] at h

/-- `uABSORB` over memory (R243, R245). -/
theorem absorbReads_uAbsorb (k : Config) (base n : Nat) (x : Absorb) :
    AbsorbReads base n fun m => uAbsorb k (memBytes m base) n x := by
  by_cases hfill : x.ctx.fill.toNat = 0
  · simp only [uAbsorb_of_empty _ _ _ hfill]
    exact absorbReads_absorbRest k base 0 n x
  · simp only [uAbsorb_of_pending _ _ _ hfill]
    have hsplit : min (32 - x.ctx.fill.toNat) n + (n - min (32 - x.ctx.fill.toNat) n) = n := by omega
    generalize hchunk : min (32 - x.ctx.fill.toNat) n = chunk at hsplit
    suffices h : AbsorbReads base (chunk + (n - chunk)) fun m => absorbFill (memBytes m base) chunk x >>= fun y =>
        if x.ctx.fill.toNat + chunk < 32 then .ok y else absorbRest k (memBytes m base) chunk n (absorbDrain k y) by
      rwa [hsplit] at h
    refine (absorbReads_absorbFill base chunk x).bind (f := fun y m => if x.ctx.fill.toNat + chunk < 32 then .ok y
      else absorbRest k (memBytes m base) chunk n (absorbDrain k y)) (.inr (Nat.zero_le _)) fun y _ => ?_
    by_cases hlt : x.ctx.fill.toNat + chunk < 32
    · simp only [if_pos hlt]
      rw [show n - chunk = 0 by omega]
      exact reads_pure fun _ _ => trivial
    · simp only [if_neg hlt]
      exact (absorbReads_absorbRest k base chunk n (absorbDrain k y)).imp fun _ _ _ _ => trivial

end Sys2Proof.Machine
end

section
/-! PROOFS. Two runs of one command (spec/20_memory.md R85, R86, spec/40_memory_unit.md R136): with another memory that agrees on the
input, and under the other discipline. -/

namespace Sys2Proof.Machine

open Sys2Proof

/-- What a body answers, with the states it ends in changed. -/
def mapState (f : State → State) : Except Raise State → Except Raise State
  | .ok t => .ok (f t)
  | .error r => .error { r with state := f r.state }

/-! ### Another memory (R85, R86) -/

theorem oneShot_withMem (W : Nat) (a : Discipline) (body : Work → Except BusStop Work) (s : State) (m : Memory) :
    oneShot W a body (s.withMem m) = mapState (fun t => t.withMem m) (oneShot W a body s) := by
  unfold oneShot
  by_cases hm : s.misaligned W a = true
  · rw [if_pos hm]
    exact if_pos hm
  by_cases ho : s.outOfRange = true
  · rw [if_neg hm, if_pos ho]
    exact (if_neg hm).trans (if_pos ho)
  · rw [if_neg hm, if_neg ho]
    refine ((if_neg hm).trans (if_neg ho)).trans ?_
    dsimp only [State.withMem_work, State.withMem_addr]
    cases body { s.work with pos := s.addr } <;> rfl

theorem bodyOf_withMem (s : State) (m : Memory) (i : Instr) : (s.withMem m).bodyOf i = s.bodyOf i := by
  cases i <;> rfl

theorem digestOf_withMem (impl : Impl) (i : Instr) (t : State) (m : Memory) :
    digestOf impl i (t.withMem m) = (digestOf impl i t).withMem m := by
  cases i <;> rfl

theorem needLive_withMem {s : State} {m : Memory} {k : State → Except Raise State}
    (hk : k (s.withMem m) = mapState (fun t => t.withMem m) (k s)) :
    needLive (s.withMem m) k = mapState (fun t => t.withMem m) (needLive s k) := by
  unfold needLive
  by_cases hl : s.stream.sstate = .live
  · rw [if_pos hl]
    exact (if_pos hl).trans hk
  · rw [if_neg hl]
    exact if_neg hl

theorem needAdapter_withMem {s : State} {m : Memory} {k : State → Except Raise State}
    (hk : k (s.withMem m) = mapState (fun t => t.withMem m) (k s)) :
    needAdapter (s.withMem m) k = mapState (fun t => t.withMem m) (needAdapter s k) := by
  unfold needAdapter
  by_cases ha : s.avalid = true
  · rw [if_pos ha]
    exact (if_pos ha).trans hk
  · rw [if_neg ha]
    exact if_neg ha

/-- The memory replaced by one that holds the same bytes in the input and maps the same of its pages. -/
abbrev State.SameInput (s : State) (m : Memory) : Prop := s.mem.SameOn m s.addr.toNat s.len.toNat

theorem supdRun_withMem {s : State} {m : Memory} (h : s.SameInput m) : (s.withMem m).supdRun = s.supdRun :=
  (absorbReads_uAbsorb s.cfg s.addr.toNat s.len.toNat s.absorbing).same s.mem m h

theorem supdBody_withMem {s : State} {m : Memory} (h : s.SameInput m) :
    supdBody (s.withMem m) = mapState (fun t => t.withMem m) (supdBody s) := by
  refine needLive_withMem ?_
  by_cases ho : s.outOfRange = true
  · rw [if_pos ho]
    exact if_pos ho
  · rw [if_neg ho]
    refine (if_neg ho).trans ?_
    show (match (s.withMem m).supdRun with
      | .ok x => Except.ok ((s.withMem m).supdDone x)
      | .error y => .error (⟨.bus, .ofNat 64 y.why, (s.withMem m).supdStopped y⟩ : Raise)) =
      mapState _ (match s.supdRun with
        | .ok x => Except.ok (s.supdDone x)
        | .error y => .error (⟨.bus, .ofNat 64 y.why, s.supdStopped y⟩ : Raise))
    rw [supdRun_withMem h]
    cases s.supdRun <;> rfl

theorem State.OneShot.commandBody_withMem {s : State} {i : Instr} {W : Nat} {a : Discipline} (h : s.OneShot i W a)
    (hm : s.Aligned W a) (ho : s.InRange) {m : Memory} (hsame : s.SameInput m) :
    commandBody i (s.withMem m) = mapState (fun t => t.withMem m) (commandBody i s) := by
  have h' : (s.withMem m).OneShot i W a := ⟨h.reads, h.notSupd, h.adapter, h.present⟩
  have hbody : s.bodyOf i m { s.work with pos := s.addr } = s.bodyOf i s.mem { s.work with pos := s.addr } :=
    (h.bodyReads { s.work with pos := s.addr } hm ho).same s.mem m hsame
  have hshot : oneShot W a (s.bodyOf i m) (s.checked i) = oneShot W a (s.bodyOf i s.mem) (s.checked i) := by
    rw [oneShot_eq_of_passes (s := s.checked i) hm ho, oneShot_eq_of_passes (s := s.checked i) hm ho]
    dsimp only [State.checked]
    rw [hbody]
  rw [h'.commandBody_eq, bodyOf_withMem, h.commandBody_eq, ← hshot]
  show oneShot W a (s.bodyOf i m) ((s.checked i).withMem m) >>= (fun t => .ok (digestOf s.resolved i t)) = _
  rw [oneShot_withMem]
  cases oneShot W a (s.bodyOf i m) (s.checked i) with
  | ok t => exact congrArg Except.ok (digestOf_withMem s.resolved i t m)
  | error r => rfl

/-- No body sees more of memory than its input: it answers the same but for the memory. -/
theorem commandBody_withMem (i : Instr) {s : State} {m : Memory} (hsame : s.SameInput m) :
    commandBody i (s.withMem m) = mapState (fun t => t.withMem m) (commandBody i s) := by
  obtain ⟨e, info, hv⟩ | hpass := s.violates_or_passes i
  · have hv' : (s.withMem m).Violates i e info :=
      State.violates_of_violation (s := s.withMem m) (State.violation_of_violates (s := s) hv)
    rw [commandBody_of_violates hv, commandBody_of_violates hv']
    rfl
  by_cases hi : i = .supd
  · subst hi
    exact supdBody_withMem hsame
  cases hr : s.reads i with
  | some Wa =>
    exact State.OneShot.commandBody_withMem ⟨hr, hi, hpass.adapter, hpass.present⟩ (hpass.aligned _ _ hr)
      (hpass.inRange _ _ hr) hsame
  | none =>
    cases i with
    | nop | clrerr | sinit | ainit => rfl
    | sfin =>
      show sfinBody (s.withMem m) = mapState _ (sfinBody s)
      exact needLive_withMem rfl
    | sfinx =>
      show sfinxBody (s.withMem m) = mapState _ (sfinxBody s)
      exact needLive_withMem rfl
    | afin =>
      show afinBody (s.withMem m) = mapState _ (afinBody s)
      exact needAdapter_withMem rfl
    | hash0 | hash1 | hash2 | hash3 | hash3x | awrite => cases hr
    | supd => exact absurd rfl hi

theorem settle_mapState_withMem (r : Except Raise State) (m : Memory) :
    settle (mapState (fun t => t.withMem m) r) = (settle r).withMem m.redraw := by
  cases r <;> rfl

/-- Settles O41: before its body a command write does not see memory, and its body sees only the input. -/
theorem dependsOnInputOnly : Obligations.DependsOnInputOnly := by
  unfold Obligations.DependsOnInputOnly
  intro i s m hsame
  have hbody := commandBody_withMem i (s := s.retire.startCommand (encode i)) (m := m) hsame
  by_cases hhalt : s.halt = true
  · exact ⟨_, m, exec_halted i hhalt, exec_halted i (s := s.withMem m) hhalt⟩
  have hrun : s.halt = false := by simpa using hhalt
  by_cases hfill : 32 ≤ s.stream.fill.toNat
  · exact ⟨_, m, exec_fatal i hrun hfill, exec_fatal i (s := s.withMem m) hrun hfill⟩
  have hfill' : s.stream.fill.toNat < 32 := Nat.lt_of_not_le hfill
  by_cases hgo : s.err = .none ∨ runsWhilePending i = true
  · refine ⟨_, m.redraw, (exec_eq_commandBody i s).trans (congrArg _ (runCommand_eq hrun hfill' hgo)), ?_⟩
    refine (exec_eq_commandBody i (s.withMem m)).trans (congrArg _ ?_)
    rw [runCommand_eq (s := s.withMem m) hrun hfill' hgo]
    exact (congrArg settle hbody).trans (settle_mapState_withMem _ m)
  · obtain ⟨herr, hi⟩ := not_or.1 hgo
    have hi' : runsWhilePending i = false := by simpa using hi
    exact ⟨_, m, exec_refused hrun hfill' herr hi', exec_refused (s := s.withMem m) hrun hfill' herr hi'⟩

/-! ### The other discipline (R80, R136) -/

/-- The state with another word in `CMD`. -/
def State.withCmd (s : State) (w : BitVec 32) : State := { s with cmd := w }

theorem settle_mapState_withCmd (r : Except Raise State) (w : BitVec 32) :
    settle (mapState (fun t => t.withCmd w) r) = (settle r).withCmd w := by
  cases r <;> rfl

section
variable {s : State} {i : Instr} {W : Nat} {a : Discipline}

theorem State.reads_withDiscipline (hr : s.reads i = some (W, a)) (hi : i ≠ .supd) (b : Discipline) :
    s.reads (i.withDiscipline b) = some (W, b) := by
  cases i with
  | supd => exact absurd rfl hi
  | nop | clrerr | sinit | sfin | sfinx | ainit | afin => cases hr
  | hash0 | hash1 | hash2 | hash3 | hash3x | awrite =>
    cases hr
    rfl

theorem withDiscipline_ne_supd (hi : i ≠ .supd) (b : Discipline) : i.withDiscipline b ≠ .supd := by
  cases i with
  | supd => exact absurd rfl hi
  | _ => nofun

theorem State.violation_withDiscipline (hr : s.reads i = some (W, a)) (hi : i ≠ .supd) (hW : s.addr.toNat % W = 0)
    (b : Discipline) : s.violation (i.withDiscipline b) = s.violation i := by
  have hl : (i.withDiscipline b).needsLive = i.needsLive := by cases i <;> rfl
  have ha : (i.withDiscipline b).needsAdapter = i.needsAdapter := by cases i <;> rfl
  have hd : (i.withDiscipline b).dispatched = i.dispatched := by cases i <;> rfl
  simp only [State.violation, hl, ha, hd, State.reads_withDiscipline hr hi b, hr, hW]
  simp

/-- With an aligned address and the input mapped, the two forms of a command do the same. -/
theorem commandBody_withDiscipline (hr : s.reads i = some (W, a)) (hi : i ≠ .supd) (hW : s.addr.toNat % W = 0)
    (hmap : s.InputMapped) (b : Discipline) (w : BitVec 32) :
    commandBody (i.withDiscipline b) (s.withCmd w) = mapState (fun t => t.withCmd w) (commandBody i s) := by
  have hsel : s.selAfter (i.withDiscipline b) = s.selAfter i := by cases i <;> rfl
  have hchecked : (s.withCmd w).checked (i.withDiscipline b) = (s.checked i).withCmd w := by
    show { s.withCmd w with sel := s.selAfter (i.withDiscipline b) } = _
    rw [hsel]
    rfl
  obtain ⟨e, info, hv⟩ | hpass := s.violates_or_passes i
  · have hv' : (s.withCmd w).Violates (i.withDiscipline b) e info := State.violates_of_violation (s := s.withCmd w) <|
      (State.violation_withDiscipline hr hi hW b).trans (State.violation_of_violates hv)
    rw [commandBody_of_violates hv, commandBody_of_violates hv', hchecked]
    rfl
  · have hshot : s.OneShot i W a := ⟨hr, hi, hpass.adapter, hpass.present⟩
    have hshot' : (s.withCmd w).OneShot (i.withDiscipline b) W b :=
      ⟨State.reads_withDiscipline hr hi b, withDiscipline_ne_supd hi b, (by cases i <;> exact hpass.adapter),
        (by cases i <;> exact hpass.present)⟩
    have ho := hpass.inRange W a hr
    rw [hshot.commandBody_of_mapped (fun _ => hW) ho hmap, hshot'.commandBody_of_mapped (fun _ => hW) ho hmap, hchecked]
    cases i <;> rfl

theorem runsWhilePending_withDiscipline (hr : s.reads i = some (W, a)) (b : Discipline) :
    runsWhilePending (i.withDiscipline b) = false := by
  cases i with
  | nop | clrerr => cases hr
  | _ => rfl

/-- The two forms leave one state but for `CMD`. -/
theorem exec_withDiscipline (hr : s.reads i = some (W, a)) (hi : i ≠ .supd) (hW : s.addr.toNat % W = 0)
    (hmap : s.InputMapped) : ∃ t : State, ∀ b, ∃ w, exec (i.withDiscipline b) s = .next (t.withCmd w) := by
  have hpend := runsWhilePending_withDiscipline hr
  by_cases hhalt : s.halt = true
  · exact ⟨s.retire, fun b => ⟨s.cmd, exec_halted _ hhalt⟩⟩
  have hrun : s.halt = false := by simpa using hhalt
  by_cases hfill : 32 ≤ s.stream.fill.toNat
  · exact ⟨s.retire.fatal, fun b => ⟨_, exec_fatal _ hrun hfill⟩⟩
  have hfill' : s.stream.fill.toNat < 32 := Nat.lt_of_not_le hfill
  by_cases herr : s.err = .none
  · refine ⟨settle (commandBody i (s.retire.startCommand 0#32)), fun b => ⟨encode (i.withDiscipline b), ?_⟩⟩
    have hbody := commandBody_withDiscipline (s := s.retire.startCommand 0#32) hr hi hW hmap b (encode (i.withDiscipline b))
    rw [exec_eq_commandBody, runCommand_eq hrun hfill' (.inl herr), ← settle_mapState_withCmd, ← hbody]
    rfl
  · exact ⟨s.retire.startCommand 0#32, fun b => ⟨_, exec_refused hrun hfill' herr (hpend b)⟩⟩

end

/-- Settles O42: with the input mapped both forms fail the same check or leave what `commandBody_of_mapped` says, which does not
name the discipline; both tail reads that succeed answer the word of the valid bytes. -/
theorem disciplineIndependent : Obligations.DisciplineIndependent := by
  unfold Obligations.DisciplineIndependent
  refine ⟨fun i s W a hr hW hmap => ?_, fun m W e pos r v u hWs _ hrW hv hu => ?_⟩
  · by_cases hi : i = .supd
    · subst hi
      exact ⟨_, _, exec_eq_commandBody .supd s, exec_eq_commandBody .supd s, rfl⟩
    · obtain ⟨t, ht⟩ := exec_withDiscipline hr hi hW hmap
      obtain ⟨w, hw⟩ := ht .unaligned
      obtain ⟨w', hw'⟩ := ht .aligned
      exact ⟨_, _, hw, hw', rfl⟩
  · rw [uTail_eq_ok hWs hrW hv, uTail_eq_ok hWs hrW hu]

end Sys2Proof.Machine
end

section
/-! PROOFS. The bus error (spec/60_exceptions.md R295): when a command raises it, and the address it records. -/

namespace Sys2Proof.Machine

open Sys2Proof

/-! ### The address -/

/-- The address of R295 is in the page of the first unmapped input byte, not above it, and unmapped. -/
structure State.Stopped (s : State) (x j : Nat) : Prop where
  unmapped : s.mem.mapped x = false
  page : x / pageSize = s.inputAddr j / pageSize
  le : x ≤ s.inputAddr j

theorem State.stopped_busAddress {s : State} {j : Nat} (hj : s.mem.FirstUnmapped s.addr.toNat j) (W : Nat) (a : Discipline) :
    s.Stopped (s.busAddress W a j) j := by
  unfold State.busAddress
  split_ifs with h
  · obtain ⟨-, hoff, hlen, hmap⟩ := h
    obtain rfl := hj.eq_zero hmap
    have hle := Nat.mod_le s.addr.toNat pageSize
    have hpage : (s.addr.toNat + s.len.toNat - W) / pageSize = s.addr.toNat / pageSize := by
      unfold pageSize at *
      omega
    refine ⟨(Memory.mapped_of_same_page hpage).trans hmap, hpage, ?_⟩
    show s.addr.toNat + s.len.toNat - W ≤ s.addr.toNat + 0
    omega
  · exact ⟨hj.unmapped, rfl, le_rfl⟩

theorem State.busAddress_eq_stopAddress (s : State) (W : Nat) (a : Discipline) (j : Nat) :
    s.mem.stopAddress (undersideSize W a) s.addr.toNat s.len.toNat j = s.busAddress W a j := by
  cases a with
  | aligned =>
    rw [State.busAddress, if_neg (by simp)]
    exact Memory.stopAddress_of_le (Nat.zero_le _) _ _
  | unaligned =>
    simp only [State.busAddress, Memory.stopAddress, undersideSize, true_and]
    rfl

/-- `SUPD` reads input bytes only. -/
theorem State.busAddress_of_nonempty {s : State} (h : 1 ≤ s.len.toNat) (a : Discipline) (j : Nat) :
    s.busAddress 1 a j = s.inputAddr j :=
  if_neg fun ⟨_, _, hlen, _⟩ => absurd hlen (Nat.not_lt.2 h)

/-! ### The error a body stops with -/

theorem State.OneShot.error_info {s : State} {i : Instr} {W j : Nat} {a : Discipline} {r : Raise} (h : s.OneShot i W a)
    (hm : s.Aligned W a) (ho : s.InRange) (hr : commandBody i s = .error r) (hj : s.mem.FirstUnmapped s.addr.toNat j) :
    r.info = .ofNat 64 (s.busAddress W a j) := by
  cases hx : s.bodyOf i s.mem { s.work with pos := s.addr } with
  | ok w =>
    rw [h.commandBody_eq, oneShot_of_ok (s := s.checked i) hm ho hx] at hr
    cases hr
  | error x =>
    rw [h.commandBody_eq, oneShot_of_error (s := s.checked i) hm ho hx] at hr
    cases hr
    have hstop : x.addr = _ := (h.bodyReads { s.work with pos := s.addr } hm ho).stop s.mem j x hx hj
    rw [← s.busAddress_eq_stopAddress, hstop]

theorem supdBody_error_info {s : State} {j : Nat} {r : Raise} (hl : s.stream.sstate = .live) (ho : s.InRange)
    (hr : supdBody s = .error r) (hj : s.mem.FirstUnmapped s.addr.toNat j) : r.info = .ofNat 64 (s.inputAddr j) := by
  obtain ⟨hno, -⟩ | ⟨-, hno, -⟩ | ⟨-, -, ⟨x, -, hx⟩ | ⟨y, hy, hx⟩⟩ := supdBody_cases s
  · exact absurd hl hno
  · exact absurd ho hno
  · cases hx.symm.trans hr
  · cases hx.symm.trans hr
    have hstop := (absorbReads_uAbsorb s.cfg s.addr.toNat s.len.toNat s.absorbing).stop s.mem j y hy hj
    rw [hstop, Memory.stopAddress_of_le (Nat.zero_le _)]
    rfl

theorem State.Passes.error_info {s : State} {i : Instr} {W j : Nat} {a : Discipline} {r : Raise} (h : s.Passes i)
    (hreads : s.reads i = some (W, a)) (hr : commandBody i s = .error r) (hj : s.mem.FirstUnmapped s.addr.toNat j)
    (hlen : j < s.len.toNat) : r.info = .ofNat 64 (s.busAddress W a j) := by
  have ho := h.inRange W a hreads
  by_cases hi : i = .supd
  · subst hi
    cases hreads
    rw [State.busAddress_of_nonempty (by omega)]
    exact supdBody_error_info (h.live rfl) ho hr hj
  · exact State.OneShot.error_info ⟨hreads, hi, h.adapter, h.present⟩ (h.aligned W a hreads) ho hr hj

/-! ### The write of the command -/

section
variable {i : Instr} {s : State}

theorem State.Passes.start (h : s.Passes i) (w : BitVec 32) : (s.retire.startCommand w).Passes i :=
  ⟨h.live, h.adapter, h.present, h.aligned, h.inRange⟩

/-- A command that passes its checks leaves no error until it raises one. -/
theorem commandBody_err_none (hs : s.Accepts) :
    EndsIn (fun u => u.err = .none) id (commandBody i (s.retire.startCommand (encode i))) :=
  commandBody_keeps (keptByBodies_err .none) (s := s.retire.startCommand (encode i)) hs.noError (fun _ => rfl)
    fun _ => hs.noError

/-- Every memory-reading command raises `E_BUS` or completes, by its input alone. -/
theorem exec_bus_iff (hs : s.Accepts) (h : s.Passes i) (hr : (s.reads i).isSome = true) :
    ∃ t : State, exec i s = .next t ∧ (t.err = .bus ↔ ¬ s.InputMapped) ∧ (t.done = true ↔ s.InputMapped) := by
  have herr := commandBody_err_none (i := i) hs
  have hattempt := commandBody_attempt (h.start (encode i))
  cases hb : commandBody i (s.retire.startCommand (encode i)) with
  | ok u =>
    rw [hb] at herr hattempt
    have hnone : u.complete.redraw.err = .none := herr
    refine ⟨_, exec_of_body_ok (exec_eq_commandBody i s) hs.running hs.fill (.inl hs.noError) hb, ?_, iff_of_true rfl (hattempt hr)⟩
    rw [hnone]
    exact iff_of_false nofun (not_not_intro (hattempt hr))
  | error r =>
    rw [hb] at herr hattempt
    obtain ⟨hbus, hunmapped⟩ := hattempt
    have hno : ¬ s.InputMapped := fun hm => hunmapped fun _ => hm
    exact ⟨_, exec_of_body_error hs hb herr, iff_of_true hbus hno, iff_of_false nofun hno⟩

/-- What `E_BUS` records, and the registers it leaves. -/
theorem exec_bus_info {W j : Nat} {a : Discipline} (hs : s.Accepts) (h : s.Passes i) (hr : s.reads i = some (W, a))
    (hlen : j < s.len.toNat) (hj : s.mem.FirstUnmapped s.addr.toNat j) :
    ∃ t : State, exec i s = .next t ∧ t.err = .bus ∧ t.errInfo = .ofNat 64 (s.busAddress W a j) ∧ t.done = false ∧
      t.resLo = s.resLo ∧ t.resHi = s.resHi ∧ t.astate = s.astate ∧ t.sel = s.selAfter i := by
  have herr := commandBody_err_none (i := i) hs
  have hattempt := commandBody_attempt (h.start (encode i))
  have hunmapped : ¬ s.InputMapped := fun hm =>
    absurd (hm j hlen) (by simp [State.inputAddr, hj.unmapped])
  cases hb : commandBody i (s.retire.startCommand (encode i)) with
  | ok u =>
    rw [hb] at hattempt
    refine absurd (hattempt ?_) hunmapped
    show (s.reads i).isSome = true
    rw [hr]
    rfl
  | error r =>
    have hframe := commandBody_frame i (s.retire.startCommand (encode i))
    obtain ⟨hlo, hhi, hastate⟩ := commandBody_error_sameDigests i (s.retire.startCommand (encode i)) r hb
    have hinfo := (h.start (encode i)).error_info hr hb hj hlen
    rw [hb] at herr hattempt hframe
    exact ⟨_, exec_of_body_error hs hb herr, hattempt.1, hinfo, rfl, hlo, hhi, hastate, hframe.sel⟩

end

/-- Settles O24: the attempt of a command that passes its checks fails exactly when its input is not mapped, and its reads say at
which address. -/
theorem busError : Obligations.BusError := by
  unfold Obligations.BusError
  intro i s W a hs hviol hr
  have hpass := State.passes_of_violation_eq_none hviol
  refine ⟨exec_bus_iff hs hpass (by rw [hr]; rfl), fun j hlen hunmapped hbefore => ?_⟩
  have hj : s.mem.FirstUnmapped s.addr.toNat j := ⟨hunmapped, hbefore⟩
  obtain ⟨t, ht, herr, hinfo, hdone, hlo, hhi, hastate, hsel⟩ := exec_bus_info hs hpass hr hlen hj
  have hstop := State.stopped_busAddress hj W a
  have hrange : s.addr.toNat + s.len.toNat ≤ 2 ^ 64 := hpass.inRange W a hr
  have hlt : s.busAddress W a j < 2 ^ 64 := by
    have hle : s.busAddress W a j ≤ s.addr.toNat + j := hstop.le
    omega
  refine ⟨t, s.busAddress W a j, ht, herr, ?_, hdone, rfl, hstop.unmapped, hstop.page, hstop.le, ?_, hlo, hhi, hastate, hsel⟩
  · rw [hinfo, BitVec.toNat_ofNat, Nat.mod_eq_of_lt hlt]
  · rintro rfl
    cases hr
    exact State.busAddress_of_nonempty (by omega) _ j

end Sys2Proof.Machine
end

section
/-! PROOFS. `uABSORB` as a function of bytes (spec/45_streaming.md R242): over a source that answers a byte list it leaves the
accumulators and the pending bytes that the pending bytes and the list, as one byte string, give. -/

namespace Sys2Proof.Machine

open Sys2Proof

/-! ### Whole blocks and the rest -/

section
variable (k : Config) (q : Quad)

theorem feedBlocks_of_lt {bs : List Byte} (h : bs.length < 32) : feedBlocks k q bs = q := by
  rw [feedBlocks, Nat.div_eq_of_lt h]
  rfl

theorem afterBlocks_of_lt {bs : List Byte} (h : bs.length < 32) : afterBlocks 32 bs = bs := by
  rw [afterBlocks, Nat.div_eq_of_lt h]
  rfl

theorem length_block_append {b : List Byte} (hb : b.length = 32) (bs : List Byte) :
    (b ++ bs).length / 32 = bs.length / 32 + 1 := by
  rw [List.length_append, hb, Nat.add_div_left _ (by decide)]

theorem feedBlocks_block_append {b : List Byte} (hb : b.length = 32) (bs : List Byte) :
    feedBlocks k q (b ++ bs) = feedBlocks k (g3Block k q b) bs := by
  rw [feedBlocks, length_block_append hb, pieces, List.take_left' hb, List.drop_left' hb]
  rfl

theorem afterBlocks_block_append {b : List Byte} (hb : b.length = 32) (bs : List Byte) :
    afterBlocks 32 (b ++ bs) = afterBlocks 32 bs := by
  rw [afterBlocks, length_block_append hb, Nat.mul_succ, Nat.add_comm, ← List.drop_drop, List.drop_left' hb, afterBlocks]

end

/-- A byte string is fed in two parts by feeding the first, and then the second behind what the first leaves pending. -/
theorem feedBlocks_append (k : Config) (cs : List Byte) (q : Quad) (bs : List Byte) :
    feedBlocks k q (bs ++ cs) = feedBlocks k (feedBlocks k q bs) (afterBlocks 32 bs ++ cs) ∧
    afterBlocks 32 (bs ++ cs) = afterBlocks 32 (afterBlocks 32 bs ++ cs) := by
  by_cases h : bs.length < 32
  · rw [feedBlocks_of_lt k q h, afterBlocks_of_lt h]
    exact ⟨rfl, rfl⟩
  · have hb : (bs.take 32).length = 32 := by
      rw [List.length_take]
      omega
    obtain ⟨hfeed, hafter⟩ := feedBlocks_append k cs (g3Block k q (bs.take 32)) (bs.drop 32)
    have hfirst (ds : List Byte) : feedBlocks k q (bs ++ ds) = feedBlocks k (g3Block k q (bs.take 32)) (bs.drop 32 ++ ds) ∧
        afterBlocks 32 (bs ++ ds) = afterBlocks 32 (bs.drop 32 ++ ds) := by
      have hds : bs ++ ds = bs.take 32 ++ (bs.drop 32 ++ ds) := by rw [← List.append_assoc, List.take_append_drop]
      rw [hds]
      exact ⟨feedBlocks_block_append k q hb _, afterBlocks_block_append hb _⟩
    obtain ⟨hfeedAll, hafterAll⟩ := hfirst cs
    obtain ⟨hfeedBs, hafterBs⟩ := hfirst []
    rw [List.append_nil, List.append_nil] at hfeedBs hafterBs
    rw [hfeedAll, hafterAll, hfeedBs, hafterBs]
    exact ⟨hfeed, hafter⟩
termination_by bs.length
decreasing_by
  rw [List.length_drop]
  omega

theorem length_afterBlocks (bs : List Byte) : (afterBlocks 32 bs).length = bs.length % 32 := by
  rw [afterBlocks, List.length_drop]
  omega

/-! ### The carry buffer as a byte list -/

theorem length_bufRead (buf : Vector Byte bufSize) {i n : Nat} (h : i + n ≤ 32) : (bufRead buf i n).length = n := by
  have hsize : buf.toList.length = 32 := buf.length_toList
  rw [bufRead, List.length_take, List.length_drop, hsize]
  omega

theorem drop_bufRead (buf : Vector Byte bufSize) (i n r : Nat) :
    (bufRead buf i n).drop r = bufRead buf (i + r) (n - r) := by
  rw [bufRead, bufRead, List.drop_take, List.drop_drop]

theorem Stream.length_pending {c : Stream} (h : c.fill.toNat ≤ 32) : c.pending.length = c.fill.toNat :=
  length_bufRead c.buf (by omega)

theorem bufRead_setIfInBounds (buf : Vector Byte bufSize) (b : Byte) {dst : Nat} (h : dst < 32) :
    bufRead (buf.setIfInBounds dst b) 0 (dst + 1) = bufRead buf 0 dst ++ [b] := by
  have hsize : buf.toList.length = 32 := buf.length_toList
  have hset : (buf.setIfInBounds dst b).toList = buf.toList.take dst ++ b :: buf.toList.drop (dst + 1) := by
    rw [Vector.toList_setIfInBounds, List.set_eq_take_append_cons_drop, if_pos (by omega)]
  have hlen : (buf.toList.take dst).length = dst := by
    rw [List.length_take]
    omega
  rw [bufRead, bufRead, List.drop_zero, List.drop_zero, hset, List.take_append, hlen, Nat.add_sub_cancel_left,
    List.take_of_length_le (by omega)]
  rfl

/-- A word of generation 3 in a block of a byte list. -/
theorem blockWord_take (bs : List Byte) (j i : Nat) (h : 8 * i + 8 ≤ 32) :
    BitVec.ofNat 64 (blockWord .little 8 ((bs.drop j).take 32) i) = sourceWord ((bs.drop (j + 8 * i)).take 8) := by
  rw [blockWord, List.drop_take, List.take_take, List.drop_drop, Nat.min_eq_left (by omega)]
  rfl

theorem uBufFetch_eq_blockWord (buf : Vector Byte bufSize) (i : Nat) (h : 8 * i + 8 ≤ 32) :
    uBufFetch buf (8 * i) = BitVec.ofNat 64 (blockWord .little 8 (bufRead buf 0 32) i) := by
  rw [bufRead, blockWord_take _ 0 i h, Nat.zero_add]
  rfl

/-- `DRAIN` over the bytes of a full buffer (R244). -/
theorem absorbDrain_ctx (k : Config) (x : Absorb) :
    (absorbDrain k x).ctx = { x.ctx with acc := g3Block k x.ctx.acc (bufRead x.ctx.buf 0 32), fill := 0#6 } := by
  have hword (i : Nat) (hi : i ≤ 3) := uBufFetch_eq_blockWord x.ctx.buf i (by omega)
  simp only [absorbDrain, g3Block, ← hword 0 (by decide), ← hword 1 (by decide), ← hword 2 (by decide), ← hword 3 (by decide)]

/-! ### The parts of `uABSORB` -/

theorem ok_of_bind {ε α β : Type} {r : Except ε α} {f : α → Except ε β} {y : β} (h : r >>= f = .ok y) :
    ∃ x, r = .ok x ∧ f x = .ok y := by
  cases r with
  | ok x => exact ⟨x, rfl, h⟩
  | error z => cases h

/-- What a source answers are the bytes of a list and their words. -/
structure ByteSource.Gives {ε : Type} (src : ByteSource ε) (bs : List Byte) : Prop where
  byte : ∀ j b, j < bs.length → src.byte j = .ok b → bs[j]? = some b
  word : ∀ j i x, j + 8 * i + 8 ≤ bs.length → src.word j i = .ok x → x = sourceWord ((bs.drop (j + 8 * i)).take 8)

/-- The accumulators and the pending bytes of a context. -/
structure Stream.Has (c : Stream) (acc : Quad) (pending : List Byte) : Prop where
  acc : c.acc = acc
  pending : c.pending = pending

section
variable {ε : Type} {src : ByteSource ε} {bs : List Byte} (hsrc : src.Gives bs)
include hsrc

theorem copyIn_ok {n : Nat} : ∀ {j dst : Nat} {x y : Absorb}, copyIn src j dst n x = .ok y → j + n ≤ bs.length → dst + n ≤ 32 →
    ∃ buf, y = { x with ctx := { x.ctx with buf := buf } } ∧
      bufRead buf 0 (dst + n) = bufRead x.ctx.buf 0 dst ++ (bs.drop j).take n := by
  induction n with
  | zero =>
    intro j dst x y h _ _
    cases h
    exact ⟨x.ctx.buf, rfl, by simp⟩
  | succ n ih =>
    intro j dst x y h hj hdst
    rw [copyIn] at h
    cases hb : src.byte j with
    | error z => simp [hb] at h
    | ok b =>
      rw [hb] at h
      obtain ⟨buf, rfl, hbuf⟩ := ih h (by omega) (by omega)
      obtain ⟨hlt, hget⟩ := List.getElem?_eq_some_iff.1 (hsrc.byte j b (by omega) hb)
      refine ⟨buf, rfl, ?_⟩
      rw [Nat.add_right_comm] at hbuf
      rw [← Nat.add_assoc, hbuf, bufRead_setIfInBounds _ _ (by omega), List.append_assoc, List.drop_eq_getElem_cons hlt, hget]
      rfl

theorem absorbFill_ok {chunk : Nat} {x y : Absorb} (h : absorbFill src chunk x = .ok y) (hn : chunk ≤ bs.length)
    (hfill : x.ctx.fill.toNat + chunk ≤ 32) :
    ∃ buf, y.ctx = { x.ctx with buf := buf, fill := .ofNat 6 (x.ctx.fill.toNat + chunk) } ∧
      bufRead buf 0 (x.ctx.fill.toNat + chunk) = x.ctx.pending ++ bs.take chunk := by
  unfold absorbFill at h
  dsimp only at h
  cases hc : copyIn src 0 x.ctx.fill.toNat chunk { x with phase := .fillBuf } with
  | error z => simp [hc] at h
  | ok z =>
    rw [hc] at h
    cases h
    obtain ⟨buf, rfl, hbuf⟩ := copyIn_ok hsrc hc (by omega) hfill
    exact ⟨buf, rfl, hbuf⟩

theorem absorbDirect_ok (k : Config) {n : Nat} : ∀ {j : Nat} {x y : Absorb}, absorbDirect k src j n x = .ok y →
    j + 32 * n ≤ bs.length →
    y = { x with ctx := { x.ctx with acc := (pieces 32 n (bs.drop j)).foldl (g3Block k) x.ctx.acc } } := by
  induction n with
  | zero =>
    intro j x y h _
    cases h
    rfl
  | succ n ih =>
    intro j x y h hj
    rw [absorbDirect] at h
    have hword (i : Nat) (hi : i ≤ 3) {v : U64} (hv : src.word j i = .ok v) :
        v = BitVec.ofNat 64 (blockWord .little 8 ((bs.drop j).take 32) i) := by
      rw [hsrc.word j i v (by omega) hv, blockWord_take bs j i (by omega)]
    split at h
    · next q hq =>
      obtain ⟨w0, h0, hq⟩ := ok_of_bind hq
      obtain ⟨w1, h1, hq⟩ := ok_of_bind hq
      obtain ⟨w2, h2, hq⟩ := ok_of_bind hq
      obtain ⟨w3, h3, hq⟩ := ok_of_bind hq
      have hblock : q = g3Block k x.ctx.acc ((bs.drop j).take 32) := by
        rw [← Except.ok.inj hq, hword 0 (by decide) h0, hword 1 (by decide) h1, hword 2 (by decide) h2,
          hword 3 (by decide) h3]
        rfl
      rw [ih h (by omega), hblock, pieces, List.drop_drop]
      rfl
    · cases h

theorem absorbStash_ok {j n : Nat} {x y : Absorb} (h : absorbStash src j n x = .ok y) (hj : j + n = bs.length) (hn : n < 32)
    (hfill : x.ctx.fill = 0#6) : y.ctx.Has x.ctx.acc (bs.drop j) := by
  have hrest : (bs.drop j).take n = bs.drop j := List.take_of_length_le (by rw [List.length_drop]; omega)
  unfold absorbStash at h
  split_ifs at h
  · cases hc : copyIn src j 0 n { x with phase := .stash } with
    | error z => simp [hc] at h
    | ok z =>
      rw [hc] at h
      cases h
      obtain ⟨buf, rfl, hbuf⟩ := copyIn_ok hsrc hc (by omega) (by omega)
      refine ⟨rfl, ?_⟩
      have hlt : (BitVec.ofNat 6 n).toNat = 0 + n := by
        rw [BitVec.toNat_ofNat]
        omega
      show bufRead buf 0 (BitVec.ofNat 6 n).toNat = _
      rw [hlt, hbuf, hrest]
      rfl
  · cases h
    refine ⟨rfl, ?_⟩
    rw [List.drop_of_length_le (by omega)]
    show bufRead x.ctx.buf 0 x.ctx.fill.toNat = []
    rw [hfill]
    rfl

theorem absorbRest_ok (k : Config) {j : Nat} {x y : Absorb} (h : absorbRest k src j bs.length x = .ok y) (hj : j ≤ bs.length)
    (hfill : x.ctx.fill = 0#6) :
    y.ctx.Has (feedBlocks k x.ctx.acc (bs.drop j)) (afterBlocks 32 (bs.drop j)) := by
  obtain ⟨z, hz, hy⟩ := ok_of_bind h
  obtain rfl := absorbDirect_ok hsrc k hz (by omega)
  have hstash := absorbStash_ok hsrc hy (by omega) (by omega) hfill
  rw [← List.drop_drop] at hstash
  simp only [feedBlocks, afterBlocks, List.length_drop]
  exact hstash

/-- `uABSORB` (R242): the pending bytes and the bytes of the source are one byte string. -/
theorem uAbsorb_ok (k : Config) {x y : Absorb} (h : uAbsorb k src bs.length x = .ok y) (hfill : x.ctx.FillBelow) :
    y.ctx.Has (x.ctx.fed k bs).1 (x.ctx.fed k bs).2 := by
  have hlen : x.ctx.pending.length = x.ctx.fill.toNat := x.ctx.length_pending (Nat.le_of_lt hfill)
  unfold Stream.fed
  by_cases hzero : x.ctx.fill.toNat = 0
  · rw [uAbsorb_of_empty k src _ hzero] at h
    rw [List.length_eq_zero_iff.1 (hlen.trans hzero)]
    exact absorbRest_ok hsrc k h (Nat.zero_le _) (BitVec.eq_of_toNat_eq hzero)
  · rw [uAbsorb_of_pending k src _ hzero] at h
    obtain ⟨z, hz, hy⟩ := ok_of_bind h
    obtain ⟨buf, hctx, hbuf⟩ := absorbFill_ok hsrc hz (by omega) (by omega)
    generalize hchunk : min (32 - x.ctx.fill.toNat) bs.length = chunk at hy hctx hbuf
    split_ifs at hy with hlt
    · cases hy
      have hall : bs.take chunk = bs := List.take_of_length_le (by omega)
      have hshort : (x.ctx.pending ++ bs).length < 32 := by
        rw [List.length_append]
        omega
      rw [feedBlocks_of_lt k _ hshort, afterBlocks_of_lt hshort]
      rw [hall] at hbuf
      refine ⟨by rw [hctx], ?_⟩
      have hfillz : (BitVec.ofNat 6 (x.ctx.fill.toNat + chunk)).toNat = x.ctx.fill.toNat + chunk := by
        rw [BitVec.toNat_ofNat]
        omega
      rw [Stream.pending, hctx]
      show bufRead buf 0 (BitVec.ofNat 6 (x.ctx.fill.toNat + chunk)).toNat = _
      rw [hfillz, hbuf]
    · have hfull : x.ctx.fill.toNat + chunk = 32 := by
        have : x.ctx.fill.toNat < 32 := hfill
        omega
      rw [hfull] at hbuf
      have hblock : (bufRead buf 0 32).length = 32 := length_bufRead buf le_rfl
      have hdrain : (absorbDrain k z).ctx = { z.ctx with acc := g3Block k x.ctx.acc (bufRead buf 0 32), fill := 0#6 } := by
        rw [absorbDrain_ctx, hctx]
      have hrest := absorbRest_ok hsrc k hy (by omega) (by rw [hdrain])
      rw [hdrain] at hrest
      rw [← List.take_append_drop chunk bs, ← List.append_assoc, ← hbuf, feedBlocks_block_append k _ hblock,
        afterBlocks_block_append hblock]
      exact hrest

end

end Sys2Proof.Machine
end

section
/-! PROOFS. The commands of the streaming hasher (spec/45_streaming.md R243, R247, R248, R251): `SUPD` and the marker as feeds of
`uABSORB`, the cascades over the carry buffer, and the context as a function of the byte string it holds. -/

namespace Sys2Proof.Machine

open Sys2Proof

/-! ### The two sources -/

theorem gives_memBytes (m : Memory) (base n : Nat) : (memBytes m base).Gives (m.bytes base n) where
  byte j b hj hb := by
    have hall := (reads_memBytes_byte base j).all m
    rw [hb] at hall
    rw [Memory.bytes_length] at hj
    rw [hall.2, Memory.bytes, List.getElem?_map, List.getElem?_range hj]
    rfl
  word j i x hj hx := by
    have hall := (reads_memBytes_word base j i).all m
    rw [hx] at hall
    rw [Memory.bytes_length] at hj
    rw [hall.2, Memory.drop_bytes m base (by omega), Memory.take_bytes m _ (by omega), Nat.add_assoc]

theorem gives_constBytes (bs : List Byte) : (constBytes bs).Gives bs where
  byte j b hj hb := by
    cases hb
    rw [List.getD_eq_getElem?_getD, List.getElem?_eq_getElem hj]
    rfl
  word j i x _ hx := by
    cases hx
    rfl

/-! ### `SUPD` (R243) -/

section
variable {s : State}

theorem State.supdRun_has {x : Absorb} (h : s.supdRun = .ok x) (hfill : s.stream.FillBelow) :
    x.ctx.Has (s.stream.fed s.cfg s.input).1 (s.stream.fed s.cfg s.input).2 := by
  refine uAbsorb_ok (gives_memBytes s.mem s.addr.toNat s.len.toNat) s.cfg (x := s.absorbing) ?_ hfill
  rw [Memory.bytes_length]
  exact h

theorem Stream.length_fed (k : Config) {c : Stream} (hfill : c.FillBelow) (bs : List Byte) :
    (c.fed k bs).2.length = (c.fill.toNat + bs.length) % 32 := by
  rw [Stream.fed, length_afterBlocks, List.length_append, c.length_pending (Nat.le_of_lt hfill)]

/-- A context that has what a feed leaves counts it in `FILL`. -/
theorem Stream.Has.fill_eq {k : Config} {c x : Stream} {bs : List Byte} (h : x.Has (c.fed k bs).1 (c.fed k bs).2)
    (hx : x.FillBelow) (hc : c.FillBelow) : x.fill.toNat = (c.fill.toNat + bs.length) % 32 := by
  rw [← x.length_pending (Nat.le_of_lt hx), h.pending, Stream.length_fed k hc]

theorem supdBody_of_mapped (hl : s.stream.sstate = .live) (ho : s.InRange) (hmap : s.InputMapped) :
    ∃ x, s.supdRun = .ok x ∧ supdBody s = .ok (s.supdDone x) := by
  have hattempt := supdBody_attempt hl ho
  obtain ⟨hno, -⟩ | ⟨-, hno, -⟩ | ⟨-, -, h | ⟨y, -, hbody⟩⟩ := supdBody_cases s
  · exact absurd hl hno
  · exact absurd ho hno
  · exact h
  · rw [hbody] at hattempt
    exact absurd hmap hattempt.2

theorem State.length_input (s : State) : s.input.length = s.len.toNat := Memory.bytes_length _ _ _

/-- The context that has taken more bytes in (R242, R243). -/
structure Stream.Took (k : Config) (c x : Stream) (bs : List Byte) : Prop extends
    x.Has (c.fed k bs).1 (c.fed k bs).2 where
  sstate : x.sstate = c.sstate
  total : x.total = c.total + .ofNat 64 bs.length
  fill : x.fill.toNat = (c.fill.toNat + bs.length) % 32

/-- What `SUPD` leaves of the context. -/
theorem State.supdDone_took {x : Absorb} (h : s.supdRun = .ok x) (hfill : s.stream.FillBelow) :
    s.stream.Took s.cfg (s.supdDone x).stream s.input := by
  have hcounts := s.supdRun_keepsCounts
  have hbelow := State.supdRun_fillBelow hfill
  rw [h] at hcounts hbelow
  obtain ⟨htotal, hsstate⟩ := hcounts
  have hhas := State.supdRun_has h hfill
  refine ⟨⟨hhas.acc, hhas.pending⟩, hsstate, ?_, hhas.fill_eq hbelow hfill⟩
  rw [s.ofNat_input_length, ← htotal]
  rfl

end

theorem Stream.Took.of_start {s : State} {x : Stream} {w : BitVec 32}
    (h : (s.retire.startCommand w).stream.Took (s.retire.startCommand w).cfg x (s.retire.startCommand w).input) :
    s.stream.Took s.cfg x s.input := h

theorem State.supdDone_completed (s : State) (w : BitVec 32) (x : Absorb) :
    ((s.retire.startCommand w).supdDone x).complete.redraw = { s with
      inbox := s.inbox.tail, reply := none, cmd := w, done := true, work := { s.work with pos := s.addr, phase := .idle },
      mem := s.mem.redraw, stream := ((s.retire.startCommand w).supdDone x).stream } := by
  cases s
  rfl

/-- `SUPD` over a mapped input: the frame of a completed command around the context that has taken the input in. -/
theorem exec_supd_of_mapped {s : State} (hs : s.Accepts) (hl : s.stream.sstate = .live) (ho : s.InRange)
    (hmap : s.InputMapped) :
    ∃ x : Stream, exec .supd s = .next { s.ended .supd { s.work with pos := s.addr, phase := .idle } with stream := x } ∧
      s.stream.Took s.cfg x s.input := by
  obtain ⟨x, hx, hbody⟩ := supdBody_of_mapped (s := s.retire.startCommand (encode .supd)) hl ho hmap
  have hexec := exec_of_body_ok (exec_eq_commandBody .supd s) hs.running hs.fill (.inl hs.noError) hbody
  rw [State.supdDone_completed] at hexec
  exact ⟨((s.retire.startCommand (encode .supd)).supdDone x).stream, hexec, (State.supdDone_took hx hs.fill).of_start⟩

/-- Settles O35: the run of `SUPD` over its mapped input gets through, and the context takes the input in. -/
theorem supdResult : Obligations.SupdResult := by
  unfold Obligations.SupdResult
  intro s hs hl ho hmap
  obtain ⟨x, hexec, htook⟩ := exec_supd_of_mapped hs hl ho hmap
  have htotal := htook.total
  have hfill := htook.fill
  rw [s.ofNat_input_length] at htotal
  rw [s.length_input] at hfill
  exact ⟨x, hexec, htook.sstate.trans hl, htotal, htook.acc, htook.pending, hfill⟩

/-! ### The cascades over the carry buffer (R214, R215) -/

/-- The part of a generation-3 cascade over the buffer from the bucket of the first of some updates on. -/
abbrev BufGives (buf : Vector Byte bufSize) (us : List (Nat → Quad → Quad)) (n : Nat) (f : Nat × Quad → Except Empty Quad) :
    Prop :=
  ∀ iq : Nat × Quad, 8 * iq.1 + n ≤ 32 → f iq = .ok (cascadeSpec 8 .little us (bufRead buf (8 * iq.1) n) iq.2)

section
variable {buf : Vector Byte bufSize} {rem : Nat}

theorem uBufTail_eq (i : Nat) {r : Nat} (h : r ≤ 8) : uBufTail buf i r = sourceWord (bufRead buf i r) := by
  rw [uBufTail, leValue_and_mask, take_bufRead buf i h]
  rfl

theorem bufGives_last (upd : U64 → Quad → Quad) :
    BufGives buf [wordUpdate upd] (lastBytes 8 rem) (g3Last (bufSource buf) rem upd) := by
  intro iq hend
  have hle := uTailLen_le (W := 8) (.inr rfl) rem
  rw [cascadeSpec_last (.inr rfl) .little _ (length_bufRead buf hend)]
  by_cases h : 0 < rem
  · have hb : lastBytes 8 rem = uTailLen 8 rem := if_pos h
    rw [if_pos h, hb]
    simp only [g3Last, if_pos h, bufSource, uBufTail_eq _ hle]
    rfl
  · rw [if_neg h, g3Last, if_neg h]

theorem bufGives_cons {thr n' : Nat} {us : List (Nat → Quad → Quad)} {f : Nat × Quad → Except Empty Quad}
    (upd : U64 → Quad → Quad) (hthr : us.length * 8 = thr) (hn : BucketLeft 8 thr rem n') (hf : BufGives buf us n' f) :
    BufGives buf (wordUpdate upd :: us) (bucketBytes 8 thr rem + n') fun iq => g3Word (bufSource buf) thr rem upd iq >>= f := by
  intro iq hend
  beta_reduce
  rw [cascadeSpec_bucket (by decide) .little _ hthr hn (length_bufRead buf hend)]
  by_cases h : thr < rem
  · have hb : bucketBytes 8 thr rem = 8 := if_pos h
    rw [hb] at hend ⊢
    rw [if_pos h, take_bufRead buf _ (Nat.le_add_right 8 n'), drop_bufRead, Nat.add_sub_cancel_left, ← Nat.mul_succ]
    have hword : g3Word (bufSource buf) thr rem upd iq = .ok (iq.1 + 1, upd (uBufFetch buf (8 * iq.1)) iq.2) := if_pos h
    rw [hword]
    exact hf (iq.1 + 1, _) (by simp only; omega)
  · have hb : bucketBytes 8 thr rem = 0 := if_neg h
    have hword : g3Word (bufSource buf) thr rem upd iq = .ok iq := if_neg h
    rw [hb, Nat.zero_add] at hend ⊢
    rw [if_neg h, hword]
    exact hf iq hend

theorem g3Cascade_bufSource (hrem : rem ≤ 32) (u4 u3 u2 u1 : U64 → Quad → Quad) (q : Quad) :
    g3Cascade (bufSource buf) rem u4 u3 u2 u1 q =
      .ok (cascadeSpec 8 .little [wordUpdate u4, wordUpdate u3, wordUpdate u2, wordUpdate u1] (bufRead buf 0 rem) q) := by
  obtain ⟨h1, h2, h3⟩ := bucketLeft (W := 8) (.inr rfl) hrem
  have hall := bufGives_cons (buf := buf) u4 (by simp) h3 <| bufGives_cons u3 (by simp) h2 <|
    bufGives_cons u2 (by simp) h1 <| bufGives_last u1
  rw [cascade_bytes (.inr rfl) hrem] at hall
  exact hall (0, q) (by simpa using hrem)

end

theorem streamDigest64_eq (k : Config) {c : Stream} (hfill : c.FillBelow) {q : Quad}
    (hq : q = g3TailAB k c.pending (uG3Squash k c.acc)) : streamDigest64 k c = uFin64 k q.a q.b := by
  rw [streamDigest64, uG3TailAB, g3Cascade_bufSource (Nat.le_of_lt hfill), hq]
  rfl

theorem streamDigest128_eq (k : Config) {c : Stream} (hfill : c.FillBelow) {q : Quad} (hq : q = g3TailABCD k c.pending c.acc) :
    streamDigest128 k c = uFin128 k q.a q.b q.c q.d := by
  rw [streamDigest128, uG3TailABCD, g3Cascade_bufSource (Nat.le_of_lt hfill), hq]
  rfl

/-! ### The marker (R246 to R248) -/

section
variable {s : State}

theorem State.marked_run (s : State) :
    uAbsorb s.cfg (constBytes (uMarker s.stream.total)) (uMarker s.stream.total).length s.absorbing = .ok s.marked := by
  unfold State.marked absorbMarker
  have hlen : (uMarker s.stream.total).length = 8 := rfl
  rw [hlen]
  cases h : uAbsorb s.cfg (constBytes (uMarker s.stream.total)) 8 s.absorbing with
  | ok y => exact congrArg (fun r => Except.ok (noStop AbsorbStop.why r)) h.symm
  | error y => exact y.why.elim

/-- The context after the marker. -/
theorem State.marked_stream (hfill : s.stream.FillBelow) :
    s.marked.ctx.Has (s.stream.marked s.cfg).1 (s.stream.marked s.cfg).2 ∧ s.marked.ctx.FillBelow ∧
    s.marked.ctx.total = s.stream.total ∧ s.marked.ctx.fill.toNat = (s.stream.fill.toNat + 8) % 32 := by
  have hhas := uAbsorb_ok (gives_constBytes (uMarker s.stream.total)) s.cfg s.marked_run hfill
  have hbelow : s.marked.ctx.FillBelow := absorbMarker_fillBelow s.cfg (x := s.absorbing) hfill
  have hcounts := uAbsorb_keepsCounts s.cfg (constBytes (uMarker s.stream.total)) (x := s.absorbing)
    (uMarker s.stream.total).length ⟨rfl, rfl⟩
  rw [s.marked_run] at hcounts
  exact ⟨hhas, hbelow, hcounts.1, hhas.fill_eq hbelow hfill⟩

end

theorem State.finished_completed (s : State) (w : BitVec 32) (hi lo : U64) :
    ((s.retire.startCommand w).finished hi lo).complete.redraw = { s with
      inbox := s.inbox.tail, reply := none, cmd := w, done := true, work := { s.work with phase := .idle },
      mem := s.mem.redraw, stream := { (s.retire.startCommand w).marked.ctx with sstate := .done }, resLo := lo,
      resHi := hi } := by
  cases s
  rfl

/-- Settles O36: the marker is a feed of eight bytes, and the digest is over what it leaves. -/
theorem sfinResult : Obligations.SfinResult := by
  unfold Obligations.SfinResult
  intro s hs hl
  obtain ⟨hhas, hbelow, htotal, hfill⟩ := State.marked_stream (s := s.retire.startCommand (encode .sfin)) hs.fill
  refine ⟨{ (s.retire.startCommand (encode .sfin)).marked.ctx with sstate := .done }, _, rfl, ?_, rfl, htotal, hhas.acc,
    hhas.pending, hfill⟩
  rw [exec_of_body_ok (exec_eq_commandBody .sfin s) hs.running hs.fill (.inl hs.noError) (sfinBody_of_live hl),
    State.finished_completed, streamDigest64_eq _ hbelow rfl, hhas.acc, hhas.pending]
  rfl

/-- Settles O37: as `SFIN`, over four accumulators and without the squash. -/
theorem sfinxResult : Obligations.SfinxResult := by
  unfold Obligations.SfinxResult
  intro s hs hl
  obtain ⟨hhas, hbelow, htotal, hfill⟩ := State.marked_stream (s := s.retire.startCommand (encode .sfinx)) hs.fill
  refine ⟨{ (s.retire.startCommand (encode .sfinx)).marked.ctx with sstate := .done }, _, rfl, ?_, rfl, htotal, hhas.acc,
    hhas.pending, hfill⟩
  rw [exec_of_body_ok (exec_eq_commandBody .sfinx s) hs.running hs.fill (.inl hs.noError) (sfinxBody_of_live hl),
    State.finished_completed, streamDigest128_eq _ hbelow rfl, hhas.acc, hhas.pending]
  rfl

end Sys2Proof.Machine
end

section
/-! PROOFS. The context holds a byte string (spec/10_state.md R49, R50, spec/45_streaming.md R251): it does so through every step, and
its digests are those of the string. -/

namespace Sys2Proof.Machine

open Sys2Proof

/-! ### The context as a function of the byte string -/

section
variable {k : Config} {x y : U64} {M : List Byte} {c : Stream}

theorem Stream.Holds.fillBelow (h : c.Holds k x y M) : c.FillBelow := by
  have := h.fill
  show c.fill.toNat < 32
  omega

theorem Stream.holds_created (k : Config) (c : Stream) (x y : U64) : (c.created x y).Holds k x y [] :=
  ⟨rfl, rfl, rfl, rfl, rfl⟩

/-- A feed of a context that holds a byte string is a feed of the string (R251). -/
theorem Stream.Holds.fed_eq (h : c.Holds k x y M) (bs : List Byte) :
    c.fed k bs = (feedBlocks k (uG3Init x y) (M ++ bs), afterBlocks 32 (M ++ bs)) := by
  obtain ⟨hfeed, hafter⟩ := feedBlocks_append k bs (uG3Init x y) M
  rw [Stream.fed, h.acc, h.pending, ← hfeed, ← hafter]

theorem Stream.Holds.append (h : c.Holds k x y M) {bs : List Byte} {c' : Stream} (htook : c.Took k c' bs) :
    c'.Holds k x y (M ++ bs) where
  live := htook.sstate.trans h.live
  acc := by rw [htook.acc, h.fed_eq]
  fill := by rw [htook.fill, h.fill, List.length_append, Nat.mod_add_mod]
  pending := by rw [htook.pending, h.fed_eq]
  total := by rw [htook.total, h.total, List.length_append, BitVec.ofNat_add]

theorem Stream.Holds.marked_eq (h : c.Holds k x y M) :
    c.marked k = (feedBlocks k (uG3Init x y) (M ++ uMarker (.ofNat 64 M.length)),
      afterBlocks 32 (M ++ uMarker (.ofNat 64 M.length))) := by
  rw [Stream.marked, h.total, h.fed_eq]

end

/-- Settles O47: the created context holds the empty string, and `SUPD` feeds what the context holds. -/
theorem chunkIndependent : Obligations.ChunkIndependent := by
  unfold Obligations.ChunkIndependent
  refine ⟨fun s hs => ⟨_, exec_sinit_of_accepts hs, Stream.holds_created s.cfg s.stream s.seedX s.seedY⟩, fun s x y M hs h ho hmap => ?_⟩
  obtain ⟨c, hexec, htook⟩ := exec_supd_of_mapped hs h.live ho hmap
  exact ⟨_, hexec, h.append htook⟩

/-- Settles O48: the marker is a feed too, so what the finishing commands hash is the string and its marker. -/
theorem streamDigests : Obligations.StreamDigests := by
  unfold Obligations.StreamDigests
  intro s x y M hs h
  constructor
  · obtain ⟨_, q, rfl, ht, -⟩ := sfinResult s hs h.live
    refine ⟨_, ht, ?_, rfl⟩
    rw [h.marked_eq]
    rfl
  · obtain ⟨_, q, rfl, ht, -⟩ := sfinxResult s hs h.live
    refine ⟨_, ht, ?_, ?_⟩ <;>
      · rw [h.marked_eq]
        rfl

/-! ### What a step does to the context -/

/-- What a command body or a step does to the context: nothing, or `SINIT` creates it, or `SUPD` feeds it, or it is live no
longer. -/
inductive State.StreamStep (s : State) (i : Option Instr) (x : Stream) : Prop
  | same (h : x = s.stream) : s.StreamStep i x
  | created (hi : i = some .sinit) (h : x = s.stream.created s.seedX s.seedY) : s.StreamStep i x
  | took (hi : i = some .supd) (hl : s.stream.sstate = .live) (h : s.stream.Took s.cfg x s.input) : s.StreamStep i x
  | ended (h : x.sstate ≠ .live) : s.StreamStep i x

theorem commandBody_ok_streamStep {i : Instr} {s u : State} (hfill : s.stream.FillBelow) (h : commandBody i s = .ok u) :
    s.StreamStep (some i) u.stream := by
  have hframe := commandBody_frame i s
  rw [h] at hframe
  cases i with
  | sinit =>
    cases h
    exact .created rfl rfl
  | supd =>
    obtain ⟨-, hb⟩ | ⟨-, -, hb⟩ | ⟨hl, -, ⟨x, hx, hb⟩ | ⟨y, -, hb⟩⟩ := supdBody_cases s <;> cases hb.symm.trans h
    exact .took rfl hl (State.supdDone_took hx hfill)
  | sfin =>
    obtain hsame | ⟨hi, -⟩ | ⟨-, -, hdone⟩ := commandBody_ok_sstate h
    · by_cases hl : s.stream.sstate = .live
      · cases (sfinBody_of_live hl).symm.trans h
        exact .ended nofun
      · exact .ended (hsame ▸ hl)
    · cases hi
    · exact .ended (by rw [hdone]; nofun)
  | sfinx =>
    obtain hsame | ⟨hi, -⟩ | ⟨-, -, hdone⟩ := commandBody_ok_sstate h
    · by_cases hl : s.stream.sstate = .live
      · cases (sfinxBody_of_live hl).symm.trans h
        exact .ended nofun
      · exact .ended (hsame ▸ hl)
    · cases hi
    · exact .ended (by rw [hdone]; nofun)
  | _ => exact .same (hframe.stream rfl)

theorem commandBody_error_streamStep {i : Instr} {s : State} {r : Raise} (h : commandBody i s = .error r) :
    s.StreamStep (some i) r.state.stream := by
  obtain ⟨e, info, hv⟩ | hpass := s.violates_or_passes i
  · cases (commandBody_of_violates hv).symm.trans h
    exact .same rfl
  · have hframe := commandBody_frame i s
    rw [h] at hframe
    cases i with
    | sinit => cases h
    | supd =>
      obtain ⟨hno, -⟩ | ⟨-, hno, -⟩ | ⟨-, -, ⟨x, -, hb⟩ | ⟨y, -, hb⟩⟩ := supdBody_cases s
      · exact absurd (hpass.live rfl) hno
      · exact absurd (hpass.inRange _ _ rfl) hno
      · cases hb.symm.trans h
      · cases hb.symm.trans h
        exact .ended nofun
    | sfin => cases (sfinBody_of_live (hpass.live rfl)).symm.trans h
    | sfinx => cases (sfinxBody_of_live (hpass.live rfl)).symm.trans h
    | _ => exact .same (hframe.stream rfl)

theorem exec_streamStep {i : Instr} {s t : State} (hfill : s.stream.FillBelow) (h : exec i s = .next t) :
    s.StreamStep (some i) t.stream := by
  have hstart {x : Stream} (hx : (s.retire.startCommand (encode i)).StreamStep (some i) x) : s.StreamStep (some i) x := by
    cases hx with
    | same h => exact .same h
    | created hi h => exact .created hi h
    | took hi hl h => exact .took hi hl h
    | ended h => exact .ended h
  obtain ⟨-, rfl⟩ | ⟨-, -, rfl⟩ | rfl | ⟨u, hu, rfl⟩ | ⟨-, r, hr, rfl⟩ := exec_ends h
  · exact .same rfl
  · exact .same rfl
  · exact .same rfl
  · have hbody := commandBody_ok_streamStep (s := s.retire.startCommand (encode i)) hfill hu
    exact hstart hbody
  · exact hstart (commandBody_error_streamStep hr)

/-- The command that a step issues, if it issues one. -/
def Due.command? : Due → Option Instr
  | .command i => some i
  | _ => none

/-- The context after a step. -/
theorem step_streamStep {s t : State} (hfill : s.stream.FillBelow) (h : step s = .next t) :
    s.StreamStep s.due.command? t.stream := by
  by_cases hcmd : ∃ i, s.due = .command i
  · obtain ⟨i, hi⟩ := hcmd
    rw [step_of_due_command hi] at h
    rw [hi]
    exact exec_streamStep hfill h
  by_cases hreset : s.due = .event .reset
  · cases (step_reset hreset).symm.trans h
    exact .ended nofun
  · exact .same (step_waits h (fun i hi => hcmd ⟨i, hi⟩) hreset).stream

theorem step_cfg {s t : State} (h : step s = .next t) : t.cfg = s.cfg := by
  by_cases hcmd : ∃ i, s.due = .command i
  · obtain ⟨i, hi⟩ := hcmd
    rw [step_of_due_command hi] at h
    exact (exec_frame h).cfg
  by_cases hreset : s.due = .event .reset
  · cases (step_reset hreset).symm.trans h
    rfl
  · exact (step_waits h (fun i hi => hcmd ⟨i, hi⟩) hreset).cfg

theorem Due.eq_command {d : Due} {i : Instr} (h : d.command? = some i) : d = .command i := by
  cases d with
  | command j =>
    cases h
    rfl
  | _ => cases h

/-- Settles O49: a context that holds a string is left alone, created anew, fed, or live no longer. -/
theorem stepKeepsStream : Obligations.StepKeepsStream := by
  unfold Obligations.StepKeepsStream
  intro s t x y M h hstep hlive
  rw [step_cfg hstep]
  cases step_streamStep h.fillBelow hstep with
  | same hsame =>
    rw [hsame]
    exact .inl h
  | created hi hcreated =>
    rw [hcreated]
    exact .inr (.inr ⟨Due.eq_command hi, Stream.holds_created _ _ _ _⟩)
  | took hi _ htook => exact .inr (.inl ⟨Due.eq_command hi, h.append htook⟩)
  | ended hno => exact absurd hlive hno

end Sys2Proof.Machine
end

section
/-! PROOFS. The invariant of the machine (spec/10_state.md R38, R45, R48, R49): `REM` through the bodies, and every step. -/

namespace Sys2Proof.Machine

open Sys2Proof

/-! ### `REM` through the one-shot bodies -/

/-- `REM` is at most 32 (R38). -/
abbrev Work.RemBelow (w : Work) : Prop := w.rem.toNat ≤ 32

/-- A read that stops leaves `REM` at most 32. -/
def StopsBelow {α : Type} (r : Except BusStop α) : Prop := ∀ x, r = .error x → x.work.RemBelow

/-- A part of a body leaves `REM` at most 32, at its end or where it stops. -/
def EndsBelow : Except BusStop Work → Prop
  | .ok w => w.RemBelow
  | .error x => x.work.RemBelow

theorem StopsBelow.bind {α : Type} {r : Except BusStop α} {f : α → Except BusStop Work} (hr : StopsBelow r)
    (hf : ∀ x, EndsBelow (f x)) : EndsBelow (r >>= f) := by
  cases h : r with
  | ok x => exact hf x
  | error x => exact hr x h

theorem EndsBelow.bind {r : Except BusStop Work} {f : Work → Except BusStop Work} (hr : EndsBelow r)
    (hf : ∀ w : Work, w.RemBelow → EndsBelow (f w)) : EndsBelow (r >>= f) := by
  cases r with
  | ok w => exact hf w hr
  | error x => exact hr

theorem StopsBelow.bind_stops {α β : Type} {r : Except BusStop α} {f : α → Except BusStop β} (hr : StopsBelow r)
    (hf : ∀ x, StopsBelow (f x)) : StopsBelow (r >>= f) := by
  cases h : r with
  | ok x => exact hf x
  | error x =>
    rintro _ ⟨⟩
    exact hr x h

/-- What a read answers is its own matter; where it stops, the bank is as it was. -/
theorem StopsBelow.map {α β : Type} {r : Except BusStop α} (h : StopsBelow r) (f : α → β) : StopsBelow (r.map f) := by
  intro x hx
  cases r with
  | ok y => cases hx
  | error y =>
    cases hx
    exact h _ rfl

section
variable {m : Memory} {w : Work} (hw : w.RemBelow)
include hw

theorem stopsBelow_fetch (W : Nat) (e : Endian) (off : Nat) : StopsBelow (w.fetch m W e off) := by
  intro x hx
  unfold Work.fetch at hx
  cases h : uFetch m W e (w.pos.toNat + off) <;> rw [h] at hx <;> cases hx
  exact hw

theorem stopsBelow_tail (W : Nat) (e : Endian) (a : Discipline) (r : Nat) : StopsBelow (w.tail m W e a r) := by
  intro x hx
  unfold Work.tail at hx
  cases h : uTail m W e a w.pos.toNat r <;> rw [h] at hx <;> cases hx
  exact hw

theorem stopsBelow_word (a : Discipline) (i : Nat) : StopsBelow ((memSource m a w).word i) :=
  (stopsBelow_fetch hw 8 .little (8 * i)).map _

theorem stopsBelow_tailword (a : Discipline) (i r : Nat) : StopsBelow ((memSource m a w).tailword i r) := by
  refine StopsBelow.map (fun x hx => ?_) _
  cases h : (w.advance (8 * i)).tail m 8 .little a r with
  | ok y =>
    rw [h] at hx
    cases hx
  | error y =>
    rw [h] at hx
    cases hx
    exact hw

theorem uG1Blk_endsBelow (k : Config) (e : Endian) : EndsBelow (uG1Blk k m e w) :=
  (stopsBelow_fetch hw 4 e 0).bind fun _ => (stopsBelow_fetch hw 4 e 4).bind fun _ =>
    (stopsBelow_fetch hw 4 e 8).bind fun _ => (stopsBelow_fetch hw 4 e 12).bind fun _ => hw

theorem uG2Blk_endsBelow (k : Config) (e : Endian) : EndsBelow (uG2Blk k m e w) :=
  (stopsBelow_fetch hw 8 e 0).bind fun _ => (stopsBelow_fetch hw 8 e 8).bind fun _ =>
    (stopsBelow_fetch hw 8 e 16).bind fun _ => (stopsBelow_fetch hw 8 e 24).bind fun _ => hw

theorem g3MemBlk_endsBelow (k : Config) (a : Discipline) : EndsBelow (g3MemBlk k m a w) :=
  (stopsBelow_word hw a 0).bind fun _ => (stopsBelow_word hw a 1).bind fun _ =>
    (stopsBelow_word hw a 2).bind fun _ => (stopsBelow_word hw a 3).bind fun _ => hw

theorem tailWord_endsBelow (W : Nat) (e : Endian) (ph : Phase) (thr rem : Nat) (upd : Nat → Quad → Quad) :
    EndsBelow (tailWord m W e ph thr rem upd w) := by
  unfold tailWord
  split_ifs
  · dsimp only
    have h := stopsBelow_fetch (m := m) (w := { w with phase := ph }) hw W e 0
    cases hx : Work.fetch { w with phase := ph } m W e 0 with
    | ok x => exact hw
    | error x => exact h x hx
  · exact hw

theorem tailLast_endsBelow (W : Nat) (e : Endian) (a : Discipline) (rem : Nat) (upd : Nat → Quad → Quad) :
    EndsBelow (tailLast m W e a rem upd w) := by
  unfold tailLast
  split_ifs
  · dsimp only
    have h := stopsBelow_tail (m := m) (w := { w with phase := .t1 }) hw W e a (uTailLen W rem)
    cases hx : Work.tail { w with phase := .t1 } m W e a (uTailLen W rem) with
    | ok x => exact hw
    | error x => exact h x hx
  · exact hw

theorem cascade_endsBelow (W : Nat) (e : Endian) (a : Discipline) (rem : Nat) (u4 u3 u2 u1 : Nat → Quad → Quad) :
    EndsBelow (cascade m W e a rem u4 u3 u2 u1 w) :=
  (tailWord_endsBelow hw W e .t4 _ rem u4).bind fun _ h => (tailWord_endsBelow h W e .t3 _ rem u3).bind fun _ h =>
    (tailWord_endsBelow h W e .t2 _ rem u2).bind fun _ h => tailLast_endsBelow h W e a rem u1

theorem g3Word_stopsBelow (a : Discipline) (thr rem : Nat) (upd : U64 → Quad → Quad) (iq : Nat × Quad) :
    StopsBelow (g3Word (memSource m a w) thr rem upd iq) := by
  unfold g3Word
  split_ifs
  · have h := stopsBelow_word (m := m) hw a iq.1
    cases hx : (memSource m a w).word iq.1 with
    | ok x => exact nofun
    | error x =>
      rintro _ ⟨⟩
      exact h x hx
  · exact nofun

theorem g3Last_stopsBelow (a : Discipline) (rem : Nat) (upd : U64 → Quad → Quad) (iq : Nat × Quad) :
    StopsBelow (g3Last (memSource m a w) rem upd iq) := by
  unfold g3Last
  split_ifs
  · have h := stopsBelow_tailword (m := m) hw a iq.1 (uTailLen 8 rem)
    cases hx : (memSource m a w).tailword iq.1 (uTailLen 8 rem) with
    | ok x => exact nofun
    | error x =>
      rintro _ ⟨⟩
      exact h x hx
  · exact nofun

theorem g3Cascade_stopsBelow (a : Discipline) (rem : Nat) (u4 u3 u2 u1 : U64 → Quad → Quad) (q : Quad) :
    StopsBelow (g3Cascade (memSource m a w) rem u4 u3 u2 u1 q) :=
  (g3Word_stopsBelow hw a 24 rem u4 (0, q)).bind_stops fun iq => (g3Word_stopsBelow hw a 16 rem u3 iq).bind_stops fun iq =>
    (g3Word_stopsBelow hw a 8 rem u2 iq).bind_stops fun iq => g3Last_stopsBelow hw a rem u1 iq

theorem g3MemTail_endsBelow (a : Discipline) {u4 u3 u2 u1 : U64 → Quad → Quad}
    {tail : WordSource BusStop → Nat → Quad → Except BusStop Quad}
    (htail : ∀ src rem q, tail src rem q = g3Cascade src rem u4 u3 u2 u1 q) : EndsBelow (g3MemTail m a tail w) := by
  have h := g3Cascade_stopsBelow (m := m) (w := { w with phase := cascadeEntry 8 w.rem.toNat }) hw a w.rem.toNat u4 u3 u2 u1
    w.acc
  rw [← htail] at h
  unfold g3MemTail
  dsimp only
  cases hx : tail (memSource m a { w with phase := cascadeEntry 8 w.rem.toNat }) w.rem.toNat w.acc with
  | ok q => exact hw
  | error x => exact h x hx

end

theorem repeatBlocks_endsBelow {blk : Work → Except BusStop Work} (hblk : ∀ w : Work, w.RemBelow → EndsBelow (blk w))
    (size n : Nat) : ∀ w : Work, w.RemBelow → EndsBelow (repeatBlocks blk size n w) := by
  induction n with
  | zero => exact fun w hw => hw
  | succ n ih =>
    intro w hw
    have hrun : repeatBlocks blk size (n + 1) w = blk w >>= fun w' => repeatBlocks blk size n (w'.advance size) := by
      rw [repeatBlocks]
      cases blk w <;> rfl
    rw [hrun]
    exact (hblk w hw).bind fun w' hw' => ih (w'.advance size) hw'

theorem remBelow_ofNat {n : Nat} (h : n ≤ 32) : (BitVec.ofNat 6 n).toNat ≤ 32 :=
  (BitVec.toNat_ofNat n 6).trans_le ((Nat.mod_le _ _).trans h)

/-- The shape of `g1Bulk`, `g2Bulk` and `g3Bulk`: `REM` is set to what is left. -/
theorem bulk_endsBelow {size len : Nat} {blk : Work → Except BusStop Work} {w1 w2 : Work} {after : Work → Work}
    {r : Except BusStop Work} (hsize : size = 16 ∨ size = 32) (hblk : ∀ w : Work, w.RemBelow → EndsBelow (blk w))
    (hw : w1.RemBelow) (hrem2 : w2.rem = .ofNat 6 len) (hrem : ∀ v, (after v).rem = .ofNat 6 (len % size))
    (hr : r = if size < len then
      match repeatBlocks blk size (len / size) w1 with
      | .ok w => .ok (after w)
      | .error x => .error x
      else .ok w2) : EndsBelow r := by
  have hmod : len % size < size := Nat.mod_lt len (by omega)
  rw [hr]
  split_ifs with hlen
  · have h := repeatBlocks_endsBelow hblk size (len / size) w1 hw
    cases hx : repeatBlocks blk size (len / size) w1 with
    | ok v =>
      show (after v).RemBelow
      rw [Work.RemBelow, hrem v]
      exact remBelow_ofNat (by omega)
    | error x =>
      rw [hx] at h
      exact h
  · show w2.RemBelow
    rw [Work.RemBelow, hrem2]
    exact remBelow_ofNat (by omega)

section
variable {m : Memory} {w : Work} (hw : w.RemBelow)
include hw

theorem g1Bulk_endsBelow (k : Config) (e : Endian) (len : Nat) : EndsBelow (g1Bulk k m e len w) :=
  bulk_endsBelow (w1 := { w with phase := .bulk, acc := uG1BulkInit w.acc }) (w2 := { w with rem := .ofNat 6 len })
    (after := fun v => { v with phase := .fold, acc := uG1Fold k v.acc, rem := .ofNat 6 (len % 16) }) (.inl rfl)
    (fun _ h => uG1Blk_endsBelow (m := m) h k e) hw rfl (fun _ => rfl) rfl

theorem g2Bulk_endsBelow (k : Config) (e : Endian) (seed len : U64) : EndsBelow (g2Bulk k m e seed len w) :=
  bulk_endsBelow (w1 := { w with phase := .bulk, acc := uG2BulkInit seed len w.acc })
    (w2 := { w with rem := .ofNat 6 len.toNat })
    (after := fun v => { v with phase := .fold, acc := uG2Fold k v.acc, rem := .ofNat 6 (len.toNat % 32) }) (.inr rfl)
    (fun _ h => uG2Blk_endsBelow (m := m) h k e) hw rfl (fun _ => rfl) rfl

theorem g3Bulk_endsBelow (k : Config) (a : Discipline) (len : Nat) {after : Work → Work}
    (hafter : ∀ v, (after v).rem = v.rem) : EndsBelow (g3Bulk k m a len after w) :=
  bulk_endsBelow (w1 := { w with phase := .bulk }) (w2 := { w with rem := .ofNat 6 len })
    (after := fun v => after { v with rem := .ofNat 6 (len % 32) }) (.inr rfl)
    (fun _ h => g3MemBlk_endsBelow (m := m) h k a) hw rfl (fun _ => hafter _) rfl

theorem g1Body_endsBelow (k : Config) (e : Endian) (a : Discipline) (seed len : U64) : EndsBelow (g1Body k m e a seed len w) :=
  (g1Bulk_endsBelow (w := { w with phase := .init, acc := uG1Init seed len w.acc }) hw k e len.toNat).bind fun _ h =>
    EndsBelow.bind (cascade_endsBelow h 4 e a _ _ _ _ _) fun _ h => h

theorem g2Body_endsBelow (k : Config) (e : Endian) (a : Discipline) (seed len : U64) : EndsBelow (g2Body k m e a seed len w) :=
  (g2Bulk_endsBelow (w := { w with phase := .init, acc := uG2Init seed len w.acc }) hw k e seed len).bind fun _ h =>
    EndsBelow.bind (cascade_endsBelow h 8 e a _ _ _ _ _) fun _ h => h

theorem g3Body_endsBelow (k : Config) (a : Discipline) (seed len : U64) : EndsBelow (g3Body k m a seed len w) :=
  (g3Bulk_endsBelow (w := { w with phase := .init, acc := uG3Init seed len }) hw k a len.toNat (after := g3Fold k) fun _ => rfl).bind
    fun _ h => g3MemTail_endsBelow h a fun _ _ _ => rfl

theorem g3xBody_endsBelow (k : Config) (a : Discipline) (seed len : U64) : EndsBelow (g3xBody k m a seed len w) :=
  (g3Bulk_endsBelow (w := { w with phase := .init, acc := uG3Init seed len }) hw k a len.toNat fun _ => rfl).bind
    fun _ h => g3MemTail_endsBelow h a fun _ _ _ => rfl

theorem bodyOf_endsBelow (s : State) (i : Instr) : EndsBelow (s.bodyOf i m w) := by
  have h0 (impl : Impl) (e : Endian) (a : Discipline) (seed : U64) :
      EndsBelow (body0 s.cfg impl e a seed s.len m w) := by
    cases impl with
    | gen1 => exact g1Body_endsBelow hw s.cfg e a seed s.len
    | gen2 | narrowRound | narrowSimd | wideSimd => exact g2Body_endsBelow hw s.cfg e a seed s.len
  cases i with
  | hash0 e a => exact h0 _ e a _
  | awrite e a => exact h0 _ e a _
  | hash1 e a => exact g1Body_endsBelow hw s.cfg e a s.seedX s.len
  | hash2 e a => exact g2Body_endsBelow hw s.cfg e a s.seedX s.len
  | hash3 a => exact g3Body_endsBelow hw s.cfg a s.seedX s.len
  | hash3x a => exact g3xBody_endsBelow hw s.cfg a s.seedX s.len
  | _ => exact hw

end

/-! ### `REM` through the commands -/

theorem oneShot_remBelow {s : State} (hs : s.work.RemBelow) (W : Nat) (a : Discipline) {body : Work → Except BusStop Work}
    (hbody : ∀ w : Work, w.RemBelow → EndsBelow (body w)) : EndsIn (fun t => t.work.RemBelow) id (oneShot W a body s) := by
  have hend := hbody { s.work with pos := s.addr } hs
  obtain ⟨-, h⟩ | ⟨-, -, h⟩ | ⟨-, -, ⟨w, hw, h⟩ | ⟨x, hx, h⟩⟩ := oneShot_cases W a body s <;> rw [h]
  · exact hs
  · exact hs
  · rw [hw] at hend
    exact hend
  · rw [hx] at hend
    exact hend

theorem digestOf_work (impl : Impl) (i : Instr) (t : State) : (digestOf impl i t).work = t.work := by
  cases i <;> rfl

/-- Every body, at its end or where it raises an error. -/
theorem commandBody_remBelow (i : Instr) {s : State} (hs : s.work.RemBelow) :
    EndsIn (fun t => t.work.RemBelow) id (commandBody i s) := by
  obtain ⟨e, info, hv⟩ | hpass := s.violates_or_passes i
  · rw [commandBody_of_violates hv]
    exact hs
  by_cases hone : i.oneShot = false ∧ i.dispatched = false
  · refine (commandBody_frame i s).imp fun t ht => ?_
    obtain ⟨-, hrem⟩ := ht.work hone.1 hone.2
    show t.work.rem.toNat ≤ 32
    rw [hrem]
    exact hs
  · obtain ⟨W, a, hr, hi⟩ : ∃ W a, s.reads i = some (W, a) ∧ i ≠ .supd := by
      cases i with
      | hash0 | hash1 | hash2 | hash3 | hash3x | awrite => exact ⟨_, _, rfl, nofun⟩
      | _ => exact absurd ⟨rfl, rfl⟩ hone
    have hshot : s.OneShot i W a := ⟨hr, hi, hpass.adapter, hpass.present⟩
    rw [hshot.commandBody_eq]
    refine (oneShot_remBelow (s := s.checked i) hs W a fun w hw => bodyOf_endsBelow hw s i).bind fun t ht => ?_
    show (digestOf s.resolved i t).work.RemBelow
    rw [digestOf_work]
    exact ht

/-! ### The error registers (R290) -/

/-- With no error pending, `ERRINFO` is 0. -/
abbrev State.ErrInfoClear (s : State) : Prop := s.err = .none → s.errInfo = 0#64

theorem keptByBodies_errInfoClear : KeptByBodies State.ErrInfoClear :=
  ⟨fun _ h => h, fun _ _ h => h, fun _ h => h, fun _ h => h, fun _ _ h => h⟩

theorem commandBody_errInfoClear (i : Instr) {s : State} (hs : s.ErrInfoClear) :
    EndsIn State.ErrInfoClear id (commandBody i s) :=
  commandBody_keeps keptByBodies_errInfoClear hs (fun _ _ => rfl) fun _ => hs

theorem commandBody_error_ne_none {i : Instr} {s : State} {r : Raise} (h : commandBody i s = .error r) :
    r.code ≠ .none := by
  intro hnone
  obtain hv | hbus := commandBody_error h
  · rw [hnone] at hv
    cases hv
  · rw [hnone] at hbus
    cases hbus

theorem State.raise_err_ne_none (s : State) {e : ErrCode} (he : e ≠ .none) (info : U64) : (s.raise e info).err ≠ .none := by
  show (if s.err = .none then e else s.err) ≠ .none
  split
  · exact he
  · assumption

/-! ### Every step keeps the invariant -/

/-- `FILL` is `TOTAL` modulo 32 on a live context (R49, R50). -/
abbrev Stream.FillCounts (c : Stream) : Prop := c.sstate = .live → c.fill.toNat = c.total.toNat % 32

theorem State.StreamStep.fillCounts {s : State} {i : Option Instr} {x : Stream} (h : s.StreamStep i x)
    (hs : s.stream.FillCounts) : x.FillCounts := by
  intro hlive
  cases h with
  | same h =>
    rw [h] at hlive ⊢
    exact hs hlive
  | created _ h =>
    rw [h]
    rfl
  | took _ hl h =>
    rw [h.fill, h.total, hs hl, BitVec.toNat_add, BitVec.toNat_ofNat]
    omega
  | ended h => exact absurd hlive h

/-- What a command leaves in the scratch registers and the error registers. -/
structure State.Settled (t : State) : Prop where
  idle : t.work.phase = .idle
  rem : t.work.RemBelow
  errInfo : t.ErrInfoClear

theorem exec_settled {i : Instr} {s t : State} (hs : s.Settled) (h : exec i s = .next t) : t.Settled := by
  have hrem := commandBody_remBelow i (s := s.retire.startCommand (encode i)) hs.rem
  have herr := commandBody_errInfoClear i (s := s.retire.startCommand (encode i)) hs.errInfo
  obtain ⟨-, rfl⟩ | ⟨-, -, rfl⟩ | rfl | ⟨u, hu, rfl⟩ | ⟨-, r, hr, rfl⟩ := exec_ends h
  · exact ⟨hs.idle, hs.rem, hs.errInfo⟩
  · exact ⟨rfl, hs.rem, nofun⟩
  · exact ⟨hs.idle, hs.rem, hs.errInfo⟩
  · rw [hu] at hrem herr
    exact ⟨rfl, hrem, herr⟩
  · rw [hr] at hrem
    exact ⟨rfl, hrem, fun hnone => absurd hnone (r.state.raise_err_ne_none (commandBody_error_ne_none hr) r.info)⟩

section
variable {s t : State} (hs : s.Inv)
include hs

theorem State.Inv.fillBelow : s.stream.FillBelow := Nat.lt_succ_of_le hs.fill

theorem State.Inv.sound : s.Sound := ⟨hs.running, hs.notFatal, hs.fillBelow⟩

theorem State.Inv.settled : s.Settled := ⟨hs.idle, hs.rem, hs.errInfo⟩

theorem State.Inv.resolved_eq : s.resolved = resolveCap s.cap := by
  obtain h | h := hs.sel <;> simp [State.resolved, h]

theorem State.Inv.exec {i : Instr} (h : Machine.exec i s = .next t) : t.Inv := by
  have hf := exec_frame h
  have hsound := exec_sound hs.sound h
  have hsettled := exec_settled hs.settled h
  refine ⟨?_, Nat.le_of_lt_succ hsound.fill, (exec_streamStep hs.fillBelow h).fillCounts hs.live, hsettled.idle,
    hsettled.rem, hsound.running, hsound.notFatal, hsettled.errInfo, ?_, ?_⟩
  · obtain hmem | hmem := hf.mem <;> rw [hmem]
    · exact hs.memory
    · exact Memory.redraw_wf hs.memory
  · rw [hf.cap, hf.cfg, hs.cap]
  · rw [hf.cap]
    obtain hsel | hsel := hf.sel <;> rw [hsel]
    · exact hs.sel
    · unfold State.selAfter
      split
      · exact .inr (congrArg some hs.resolved_eq)
      · exact hs.sel

theorem State.Inv.waits (h : s.Waits t) (hsound : t.Sound) : t.Inv where
  memory := h.memory hs.memory
  fill := Nat.le_of_lt_succ hsound.fill
  live := by
    rw [h.stream]
    exact hs.live
  idle := by
    obtain hw | hw := h.work <;> rw [hw]
    exact hs.idle
  rem := by
    obtain hw | hw := h.work <;> rw [hw] <;> exact hs.rem
  running := hsound.running
  notFatal := hsound.notFatal
  errInfo := fun hnone => by
    obtain ⟨herr, hinfo⟩ := h.errors hnone
    rw [hinfo]
    exact hs.errInfo (herr.symm.trans hnone)
  cap := by rw [h.cap, h.cfg, hs.cap]
  sel := by
    rw [h.sel, h.cap]
    exact hs.sel

theorem State.Inv.hardReset : (Machine.hardReset s.retire).Inv :=
  have h0 : State.reset.Inv := resetSatisfiesInv
  ⟨hs.memory, h0.fill, h0.live, h0.idle, h0.rem, rfl, h0.notFatal, h0.errInfo, rfl, .inl rfl⟩

end

/-- Settles O60: a command keeps the invariant by what is said of its body, reset sets it up, and the other steps leave what it is
about. -/
theorem stepKeepsInv : Obligations.StepKeepsInv := by
  unfold Obligations.StepKeepsInv
  intro s t hs h
  by_cases hcmd : ∃ i, s.due = .command i
  · obtain ⟨i, hi⟩ := hcmd
    rw [step_of_due_command hi] at h
    exact hs.exec h
  by_cases hreset : s.due = .event .reset
  · cases (step_reset hreset).symm.trans h
    exact hs.hardReset
  · exact hs.waits (step_waits h (fun i hi => hcmd ⟨i, hi⟩) hreset) (step_sound hs.sound h)

end Sys2Proof.Machine
end
